-- ==== Sys2Proof/Word.lean ====
section
/-! DEFINITION. The plain value types of the block: bits, bit sequences, op codes, seconds (spec 00 R11, R12; 30 R80).

Values on the block's ports are natural numbers (00 R11); only what the spec treats as a bundle of wires is a bit
vector: the 4-bit op code, the 2-bit parity-mode code and the 3-bit status code. -/

namespace Sys2Proof

/-- A bit, 0 or 1; DOC's `true` is 1 (00 R11). -/
abbrev Bit := Bool

/-- A finite sequence of bits; index 0 is the first bit on the wire (00 R12). -/
abbrev BitSeq := List Bit

/-- The four wires `cmd_op[3:0]` (30 R80). -/
abbrev OpCode := BitVec 4

/-- A duration or a time, an exact rational number of seconds (00 R10, R16). -/
abbrev Seconds := Rat

end Sys2Proof
end

