-- ==== Sys2Proof/Config.lean ====
section
/-! DEFINITION. What the spec leaves to an implementation (00 R9, 92 D6, D18, D22), the free value of the wall clock
(41 R143), and the record type of the configuration register CFG (10 R20).

The parameters are opaque: no proof can see their values, so a claim about the model holds for every value the
spec allows (log 4, log 5). -/

namespace Sys2Proof

/-- How far MAX_DATA_BITS lies above the least value 8 that decision D6 allows. Free: any natural. -/
opaque Config.extraDataBits : Nat

/-- How far IN_WIDTH lies above the least value 1. Free: any natural. -/
opaque Config.extraInWidth : Nat

/-- The poll backoff as a pair (n, d) standing for (n + 1)/(d + 1) seconds. Free: any positive rational. -/
opaque Config.backoffParts : Nat × Nat

/-- The answer of the k-th `draw_elapsed`: a non-negative rational number of seconds under no law (41 R143, 93 I8).
A FREE VALUE: nothing constrains it but its type (log 5). -/
opaque Config.elapsed : Nat → NNRat

/-- MAX_DATA_BITS, the largest W that CONFIGURE accepts: OPEN, a natural at least 8 (00 R9, 92 D6). -/
def Config.maxDataBits : Nat := 8 + Config.extraDataBits

/-- MAX_FRAME_BITS = MAX_DATA_BITS + 3 (00 R9). -/
def Config.maxFrameBits : Nat := Config.maxDataBits + 3

/-- IN_WIDTH, the width of the port `din`: OPEN, a natural at least 1 (00 R9, 92 D22). -/
def Config.inWidth : Nat := 1 + Config.extraInWidth

/-- BACKOFF, the poll backoff: OPEN, a positive duration, timing only (00 R9, 92 D18). -/
def Config.backoff : Seconds :=
  ((Config.backoffParts.1 + 1 : Nat) : Rat) / ((Config.backoffParts.2 + 1 : Nat) : Rat)

/-- The source's example value of BACKOFF, 50 ms: a default that no rule and no claim relies on (70 R269, 93 I4). -/
def Config.backoffDefault : Seconds := 1 / 20

/-- DOC's `parity_mode` (10 R20). -/
inductive ParityMode where
  | none
  | even
  | odd
  deriving DecidableEq, Repr

/-- The configuration register CFG: a record of six fields, not a packed word (10 R20, 92 D5). -/
structure Cfg where
  /-- CFG.W, `data_bit_width` -/
  w : Nat
  /-- CFG.PM, `parity_mode` -/
  pm : ParityMode
  /-- CFG.BAUD, `baud_rate` -/
  baud : Nat
  /-- CFG.INJ, `error_injection_enabled` -/
  inj : Bit
  /-- CFG.PROB, `error_probability`, an exact rational (92 D9) -/
  prob : Rat
  /-- CFG.NB, `num_bytes_per_run` -/
  nb : Nat
  deriving DecidableEq, Repr

/-- DOC's defaults, which the spec lets into the model only as reset values of CFG (10 R20, 70 R269). -/
def Cfg.default : Cfg :=
  { w := 8, pm := .even, baud := 9600, inj := true, prob := 1 / 20, nb := 5 }

/-- P, the parity-bit count (00 R8). -/
def ParityMode.count : ParityMode → Nat
  | .none => 0
  | .even => 1
  | .odd => 1

/-- L = 2 + W + P, the frame length in bits (00 R8, 30 R71). -/
def frameLength (W : Nat) (pm : ParityMode) : Nat := 2 + W + pm.count

end Sys2Proof
end

