-- ==== Sys2Proof/Syntax.lean ====
section
/-! DEFINITION. The eight commands of the block, one constructor per row of spec/opcode_table.json (30 R81).

A command word has no operand field: operands are read from the named ports in the acceptance step (30 R80), so no
constructor carries one. -/

namespace Sys2Proof

/-- The commands (30 R81). -/
inductive Instr where
  | configure
  | encode
  | decode
  | calcParity
  | transmit
  | receive
  | waitReady
  | run
  deriving DecidableEq, Repr

end Sys2Proof
end

