-- ==== Sys2Proof/Machine/State.lean ====
section
/-! DEFINITION. The state of the block (spec 10), its reset value (70 R250), and the reasons a step can stop.

Every register of 10 R20 to R31 is a field. Beside them stand the two output histories that reset leaves alone
(EV, 10 R33; CL, 60 R232), the sample of the input ports that the next step reads with the samples to come
(10 R34; log 2), and two fields of the model's own: the answers the collaborator has given (10 R38) and the index of
the next free clock reading (log 5). -/

namespace Sys2Proof.Machine

/-- Completion statuses (30 R84). The codes 101 to 111 never occur and have no constructor (93 I13). -/
inductive Status where
  | ok
  | invalidConfiguration
  | invalidFrameShape
  | illegalCommand
  | notConfigured
  deriving DecidableEq, Repr

/-- PHASE, the sequencer's control state (10 R28). -/
inductive Phase where
  /-- IDLE -/
  | idle
  /-- POLL -/
  | poll
  /-- TX -/
  | tx
  /-- RX -/
  | rx
  /-- R_DRAW -/
  | rDraw
  /-- R_ENCODE -/
  | rEncode
  /-- R_POLL -/
  | rPoll
  /-- R_TX -/
  | rTx
  /-- R_RXBEGIN -/
  | rRxBegin
  /-- R_RX -/
  | rRx
  /-- R_DECODE -/
  | rDecode
  /-- R_REPORT -/
  | rReport
  deriving DecidableEq, Repr

/-- DEC_OUT's triple, with the flags FE and PE (10 R31, R32). -/
structure Decoded where
  value : Nat
  /-- FE, DOC's `framing_error` -/
  fe : Bit
  /-- PE, DOC's `parity_error` -/
  pe : Bit
  deriving DecidableEq, Repr

/-- The events sent to the observability collaborator (10 R33, 30 R79). -/
inductive Event where
  /-- BitEvent(bit_index, value) -/
  | bit (bitIndex : Nat) (value : Bit)
  /-- FrameSummary(byte_index, sent_value, received_value, framing_error, parity_error, elapsed_time) -/
  | summary (byteIndex sentValue receivedValue : Nat) (framingError parityError : Bit) (elapsedTime : Seconds)
  deriving DecidableEq, Repr

/-- An answer on `rnd_ans` (10 R35). -/
inductive RndAnswer where
  /-- to a `value(W)` draw -/
  | value (v : Nat)
  /-- to a `prob` draw -/
  | prob (u : Rat)
  deriving DecidableEq, Repr

/-- The record on `cfg_in` (30 R76); PM is the 2-bit code. -/
structure CfgIn where
  w : Nat
  pm : BitVec 2
  baud : Nat
  inj : Bit
  prob : Rat
  nb : Nat
  deriving DecidableEq, Repr

/-- What stands on the block's input ports at one step (10 R34). -/
structure Pins where
  /-- `rst` -/
  rst : Bit
  /-- `cmd_valid` -/
  cmdValid : Bit
  /-- `cmd_op[3:0]` -/
  cmdOp : OpCode
  /-- `din` -/
  din : Nat
  /-- `frame_in` -/
  frameIn : BitSeq
  /-- `cfg_in` -/
  cfgIn : CfgIn
  /-- `rnd_ans`; `none` while the collaborator has not answered (70 R262) -/
  rndAns : Option RndAnswer
  deriving DecidableEq, Repr

/-- Quiet ports: no reset, no offer, no answer, every data port zero or empty (log 2). -/
def Pins.quiet : Pins :=
  { rst := false, cmdValid := false, cmdOp := 0, din := 0, frameIn := [],
    cfgIn := { w := 0, pm := 0, baud := 0, inj := false, prob := 0, nb := 0 }, rndAns := none }

/-- The registers that may hold "absent" (10 R29 to R31). -/
inductive Reg where
  | curValue
  | txBuf
  | txWire
  | txTrace
  | rxBuf
  | rxSeq
  | rxElapsed
  | encOut
  | parOut
  | decOut
  deriving DecidableEq, Repr

/-- The state of one instance of the block (10 R20 to R33, 60 R237). -/
structure State where
  /-- CFG -/
  cfg : Cfg
  /-- CFG_VALID -/
  cfgValid : Bit
  /-- RDY -/
  rdy : Bit
  /-- STATUS -/
  status : Status
  /-- BUSY -/
  busy : Bit
  /-- CMD -/
  cmd : Option Instr
  /-- PHASE -/
  phase : Phase
  /-- BIT_IDX -/
  bitIdx : Nat
  /-- BYTE_IDX -/
  byteIdx : Nat
  /-- CUR_VALUE -/
  curValue : Option Nat
  /-- TX_BUF -/
  txBuf : Option BitSeq
  /-- TX_WIRE -/
  txWire : Option BitSeq
  /-- TX_TRACE -/
  txTrace : Option (List Seconds)
  /-- RX_BUF -/
  rxBuf : Option BitSeq
  /-- RX_SEQ -/
  rxSeq : Option BitSeq
  /-- RX_ELAPSED -/
  rxElapsed : Option Seconds
  /-- ENC_OUT -/
  encOut : Option BitSeq
  /-- PAR_OUT -/
  parOut : Option Bit
  /-- DEC_OUT -/
  decOut : Option Decoded
  /-- EV, oldest event first -/
  ev : List Event
  /-- CL, the completion log, oldest entry first (60 R232) -/
  cl : List (OpCode × Status)
  /-- the collaborator's answers consumed so far, in request order (10 R38) -/
  rndTaken : List RndAnswer
  /-- how many clock readings were drawn (log 5) -/
  elapsedDraws : Nat
  /-- the input ports at this step -/
  pins : Pins
  /-- the input ports at the steps after this one; quiet when it has run out (log 2) -/
  script : List Pins
  deriving DecidableEq, Repr

/-- The state after reset: every register at the value of 10 R20 to R31; the histories are empty, the ports quiet and
the clock unread, which is the model's own choice (log 3). -/
def State.reset : State :=
  { cfg := Cfg.default, cfgValid := true, rdy := true, status := .ok, busy := false, cmd := none, phase := .idle,
    bitIdx := 0, byteIdx := 0, curValue := none,
    txBuf := none, txWire := none, txTrace := none, rxBuf := none, rxSeq := none, rxElapsed := none,
    encOut := none, parOut := none, decOut := none,
    ev := [], cl := [], rndTaken := [], elapsedDraws := 0, pins := Pins.quiet, script := [] }

/-- Why the model stops. The first two are the spec's; no state that a run reaches raises the last three. -/
inductive Fault where
  /-- Raised by any step or port read that reads a register holding "absent" (00 R14, 70 R266). Safe: the spec asks a
  model for this fault. -/
  | absentRead (r : Reg)
  /-- Raised by a draw step whose `rnd_ans` is of the wrong kind or out of its range. Safe: the spec puts a
  collaborator that does this outside itself (93 I19). -/
  | rndAnswerOutOfRange
  /-- Raised by a bit step whose BIT_IDX is not below the buffer's length (41 R131 and R141 presume it is; 10 R39(d)).
  Safe: the spec gives no step there. -/
  | bitIndexOutOfRange
  /-- Raised by a bit step when CFG.BAUD = 0, where the bit period 1/BAUD is undefined (92 D7). Safe. -/
  | bitPeriodUndefined
  /-- Raised by a step with BUSY = 1 and PHASE = IDLE, a control state without a rule (10 R39(a)). Safe. -/
  | noRuleForControlState
  deriving DecidableEq, Repr

/-- Why the model has no meaning for an instruction. -/
inductive Refusal where
  /-- Raised by a dispatch arm whose instruction has no meaning yet. Safe. No arm raises it. -/
  | notModelled (mnemonic : String)
  deriving DecidableEq, Repr

end Sys2Proof.Machine
end

