-- ==== Sys2Proof/Machine/Flags.lean ====
section
/-! DEFINITION. The check bit and the two error flags (40 R100, R102; 10 R32). The encoder and the decoder call the one
`parityBit`, so their polarity cannot differ (40 R112). -/

namespace Sys2Proof.Machine

/-- `v[i]` = floor(v / 2^i) mod 2 (00 R11). -/
def bitOf (v i : Nat) : Bit := v.testBit i

/-- The data bits v[0], ..., v[W-1], least significant first (30 R73). -/
def dataBits (W v : Nat) : BitSeq := (List.range W).map (bitOf v)

/-- `xor_reduce` (00 R13): 1 exactly when an odd number of the bits are 1. -/
def xorReduce : BitSeq → Bit
  | [] => false
  | b :: bs => b ^^ xorReduce bs

/-- `parity_bit(v, W, PM)` (40 R100): the XOR of the W data bits, inverted under Odd; under None the plain XOR
(92 D20). -/
def parityBit (v W : Nat) (pm : ParityMode) : Bit :=
  match pm with
  | .odd => !xorReduce (dataBits W v)
  | .even => xorReduce (dataBits W v)
  | .none => xorReduce (dataBits W v)

/-- FE: 0 when the stop bit s[L-1] is 1, else 1 (40 R102). -/
def framingError (s : BitSeq) (L : Nat) : Bit := !(s[L - 1]? == some true)

/-- PE: with parity, 0 when s[W+1] is the parity recomputed over the decoded value, else 1; always 0 under None
(40 R102, 90 C11). -/
def parityError (s : BitSeq) (value W : Nat) (pm : ParityMode) : Bit :=
  match pm with
  | .none => false
  | .even => !(s[W + 1]? == some (parityBit value W .even))
  | .odd => !(s[W + 1]? == some (parityBit value W .odd))

/-- The 3-bit status code on `status_out` (30 R84). -/
def Status.code : Status → BitVec 3
  | .ok => 0b000
  | .invalidConfiguration => 0b001
  | .invalidFrameShape => 0b010
  | .illegalCommand => 0b011
  | .notConfigured => 0b100

end Sys2Proof.Machine
end

