-- ==== Sys2Proof/Machine/Operands.lean ====
section
/-! DEFINITION. Operand assembly and the frame format: the value operand (30 R85), the configuration operand (30 R76,
43 R202), the encoder's frame (30 R70, 40 R101) and the decoder's reassembly (30 R86, 40 R102). -/

namespace Sys2Proof.Machine

/-- `trunc_W(v)` = v mod 2^W (00 R11): truncation is masking, never an error (30 R85). -/
def trunc (W v : Nat) : Nat := v % 2 ^ W

/-- The parity field of a frame: one bit when parity is enabled, nothing under None (30 R74). -/
def parityField (v W : Nat) (pm : ParityMode) : BitSeq :=
  match pm with
  | .none => []
  | .even => [parityBit v W .even]
  | .odd => [parityBit v W .odd]

/-- `encode_frame(v, W, PM)` (40 R101): start bit 0, data bits LSB first, the parity field, stop bit 1. -/
def encodeFrame (v W : Nat) (pm : ParityMode) : BitSeq :=
  [false] ++ dataBits W (trunc W v) ++ parityField (trunc W v) W pm ++ [true]

/-- The natural whose bits, least significant first, are given (30 R86). -/
def valueOf : BitSeq → Nat
  | [] => 0
  | b :: bs => b.toNat + 2 * valueOf bs

/-- `decode_frame`'s result (40 R102): malformed, or a value with its two flags. -/
inductive FrameResult where
  | shape
  | ok (d : Decoded)
  deriving DecidableEq, Repr

/-- `decode_frame(s, W, PM)` (40 R102). The start bit s[0] is not read (40 R110). -/
def decodeFrame (s : BitSeq) (W : Nat) (pm : ParityMode) : FrameResult :=
  if s.length ≠ frameLength W pm then .shape
  else
    .ok { value := valueOf ((s.drop 1).take W)
          fe := framingError s (frameLength W pm)
          pe := parityError s (valueOf ((s.drop 1).take W)) W pm }

/-- `mode`: the parity mode of a 2-bit code; 11 is reserved (30 R76). -/
def mode (code : BitVec 2) : Option ParityMode :=
  match code.toNat with
  | 0 => some .none
  | 1 => some .even
  | 2 => some .odd
  | _ => none

/-- The 2-bit code of a parity mode (30 R76). -/
def modeCode : ParityMode → BitVec 2
  | .none => 0b00
  | .even => 0b01
  | .odd => 0b10

/-- `cfg_ok(c)` (43 R202). The PROB check does not depend on INJ (43 R203). -/
def cfgOk (c : CfgIn) : Bool :=
  decide (1 ≤ c.w) && decide (c.w ≤ Config.maxDataBits) && (mode c.pm).isSome && decide (1 ≤ c.baud)
    && decide (0 ≤ c.prob) && decide (c.prob ≤ 1)

/-- The CFG record a valid `cfg_in` latches (43 R200); nothing for an invalid one: no field is ever partly written
and no illegal value is converted (43 R201). -/
def latchOf (c : CfgIn) : Option Cfg :=
  if cfgOk c then
    (mode c.pm).map fun pm => { w := c.w, pm := pm, baud := c.baud, inj := c.inj, prob := c.prob, nb := c.nb }
  else none

end Sys2Proof.Machine
end

