-- ==== Sys2Proof/Decode.lean ====
section
/-! DEFINITION. The command decoder and the encoder (30 R80 to R83).

The decoder is total on the sixteen values of `cmd_op[3:0]`; the reserved codes are rejected by name. -/

namespace Sys2Proof

/-- Why a word is no command (30 R82). -/
inductive DecodeError where
  /-- The code is reserved: 0x0 or 0x9 to 0xF. -/
  | reservedOpcode (op : OpCode)
  deriving DecidableEq, Repr

/-- `decode_op` (30 R83): the command of an op code, by the opcode map of 30 R81. -/
def decode (op : OpCode) : Except DecodeError Instr :=
  match op.toNat with
  | 0x1 => .ok .configure
  | 0x2 => .ok .encode
  | 0x3 => .ok .decode
  | 0x4 => .ok .calcParity
  | 0x5 => .ok .transmit
  | 0x6 => .ok .receive
  | 0x7 => .ok .waitReady
  | 0x8 => .ok .run
  | _ => .error (.reservedOpcode op)

/-- The op code of a command (30 R81). -/
def encode : Instr → OpCode
  | .configure => 0x1
  | .encode => 0x2
  | .decode => 0x3
  | .calcParity => 0x4
  | .transmit => 0x5
  | .receive => 0x6
  | .waitReady => 0x7
  | .run => 0x8

/-- The wires `cmd_op[3:0]` of a number: its low four bits (log 18). -/
def opOfWord (w : Nat) : OpCode := BitVec.ofNat 4 w

/-- The instruction the decoder reads from an instruction whose bits are `w`. A command is one 4-bit word (30 R80),
so the number of bits asked for does not matter and there are no bytes to order. -/
def decodeTableWord (_nbits w : Nat) : Option Instr :=
  match decode (opOfWord w) with
  | .ok i => some i
  | .error _ => none

end Sys2Proof
end

