-- ==== Sys2Proof/Machine/Ops.lean ====
section
/-! DEFINITION. The shared operations of every command and phase: the environment primitives (00 R16), the end of a
command with a status (60 R221), the configuration guard (60 R225), reading a register that may be absent
(00 R14), and the reset (70 R250).

An operation that can stop takes the rest of the step as a continuation, so a step that holds or faults has done
nothing yet. -/

namespace Sys2Proof.Machine

/-- What one step answers. -/
abbrev Result := Host.Outcome State Fault Refusal

/-- Apply `f` to a next state; a fault or a refusal stays. -/
def Result.mapNext (f : State → State) : Result → Result
  | .next s => .next (f s)
  | .fault r => .fault r
  | .refused r => .refused r

/-- `complete(S)` ends the command whose op code is `op` (60 R221) and appends to the completion log (60 R232). -/
def complete (op : OpCode) (st : Status) (s : State) : State :=
  { s with status := st, busy := false, cmd := none, phase := .idle, cl := s.cl ++ [(op, st)] }

/-- `raise S` (00 R16, 60 R221): the block's one exception entry. It saves nothing, changes no mode and vectors
nowhere; the host reads STATUS and issues its next command (60 R231). -/
def raise (op : OpCode) (st : Status) (s : State) : Result := .next (complete op st s)

/-- The acceptance of a multi-step command: CMD, BUSY and PHASE are written (10 R26, R27). -/
def begin (i : Instr) (p : Phase) (s : State) : State := { s with cmd := some i, busy := true, phase := p }

/-- `phase <- p` (00 R16). -/
def goto (p : Phase) (s : State) : State := { s with phase := p }

/-- `emit(e)` (00 R16, 10 R33). -/
def emit (e : Event) (s : State) : State := { s with ev := s.ev ++ [e] }

/-- `delay(t)`: the block waits `t` seconds, with no effect on state (00 R16; log 11). -/
def delay (_t : Seconds) (s : State) : State := s

/-- The collaborator's answer is consumed (20 R55). -/
def takeAnswer (a : RndAnswer) (s : State) : State := { s with rndTaken := s.rndTaken ++ [a] }

/-- The configuration guard (60 R225): the first action of every command that reads CFG. -/
def guarded (i : Instr) (s : State) (k : Result) : Result :=
  if s.cfgValid then k else raise (encode i) .notConfigured s

/-- Read a register that may be absent; reading "absent" is a fault, never a value (00 R14). -/
def need {α : Type} (r : Reg) (v : Option α) (k : α → Result) : Result :=
  match v with
  | some a => k a
  | none => .fault (.absentRead r)

/-- `draw_value(W)`: a natural below 2^W (00 R16, 10 R35). Without an answer the block holds (70 R262); an answer
outside the range is the collaborator's breach (93 I19). -/
def drawValue (W : Nat) (s : State) (k : Nat → State → Result) : Result :=
  match s.pins.rndAns with
  | none => .next s
  | some (.value v) =>
    if v < 2 ^ W then k v (takeAnswer (.value v) s) else .fault .rndAnswerOutOfRange
  | some (.prob _) => .fault .rndAnswerOutOfRange

/-- `draw_prob()`: a rational u with 0 ≤ u < 1 (00 R16, 10 R35), with the same hold and the same premise. -/
def drawProb (s : State) (k : Rat → State → Result) : Result :=
  match s.pins.rndAns with
  | none => .next s
  | some (.prob u) =>
    if 0 ≤ u ∧ u < 1 then k u (takeAnswer (.prob u) s) else .fault .rndAnswerOutOfRange
  | some (.value _) => .fault .rndAnswerOutOfRange

/-- The value the next `draw_elapsed()` answers: free (41 R143; log 5). -/
def elapsedNow (s : State) : Seconds := (Config.elapsed s.elapsedDraws : Rat)

/-- `RX_ELAPSED <- draw_elapsed()` (41 R143): every measurement is a fresh free value. -/
def drawElapsed (s : State) : State :=
  { s with rxElapsed := some (elapsedNow s), elapsedDraws := s.elapsedDraws + 1 }

/-- The bit period 1/BAUD seconds (00 R10); at BAUD = 0, which CONFIGURE never latches, it is undefined (92 D7). -/
def bitPeriod (s : State) (k : Seconds → Result) : Result :=
  if s.cfg.baud = 0 then .fault .bitPeriodUndefined else k (1 / (s.cfg.baud : Rat))

/-- The bit at BIT_IDX of a latched buffer; the bit steps presume the index is inside it (41 R131, R141). -/
def bitAtIdx (buf : BitSeq) (s : State) (k : Bit → Result) : Result :=
  match buf[s.bitIdx]? with
  | some b => k b
  | none => .fault .bitIndexOutOfRange

/-- The reset (70 R250): every register takes its reset value. EV and CL stay (70 R251), the collaborator's consumed
answers stay consumed (70 R252), and what the outside world does is not the block's to change. -/
def resetBlock (s : State) : State :=
  { State.reset with
    ev := s.ev, cl := s.cl, rndTaken := s.rndTaken, elapsedDraws := s.elapsedDraws,
    pins := s.pins, script := s.script }

/-- The ports move on to the sample of the next step; they are quiet once the script has run out (log 2). -/
def tick (s : State) : State := { s with pins := s.script.headD Pins.quiet, script := s.script.tail }

end Sys2Proof.Machine
end

