-- ==== Sys2Proof/Machine/Channel.lean ====
section
/-! DEFINITION. The serializer with the bit-error injector and the frame timing: TRANSMIT, RECEIVE and their bit steps
(41 R130 to R144). RUN's phases R_TX and R_RX share the bit steps (42 R169, R171). -/

namespace Sys2Proof.Machine

/-- TRANSMIT, acceptance step (41 R130): latch the frame; an empty frame completes at once. No shape check
(92 D21), and RDY is neither read nor written (92 D13). -/
def execTransmit (s : State) : Result :=
  guarded .transmit s <|
    let s' := { s with txBuf := some s.pins.frameIn, txWire := some [], txTrace := some [], bitIdx := 0 }
    if s.pins.frameIn.length = 0 then .next (complete (encode .transmit) .ok s')
    else .next (begin .transmit .tx s')

/-- `inject_trial()` (41 R132): no draw when injection is off; otherwise one draw, and a flip iff u < PROB. -/
def injectTrial (s : State) (k : Bit → State → Result) : Result :=
  if s.cfg.inj then drawProb s fun u s' => k (decide (u < s.cfg.prob)) s' else k false s

/-- The transmit bit step (41 R131): trial, emit, trace, delay, in DOC's order; `last` is what the step of the
last bit does besides. The draw comes before any write, so a step that holds has changed nothing (70 R262). -/
def txBitStep (last : State → State) (s : State) : Result :=
  need .txBuf s.txBuf fun buf =>
  need .txWire s.txWire fun wire =>
  need .txTrace s.txTrace fun trace =>
  bitAtIdx buf s fun b =>
  bitPeriod s fun t =>
  injectTrial s fun f s₁ =>
    let s₂ := emit (.bit s.bitIdx (b ^^ f)) { s₁ with txWire := some (wire ++ [b ^^ f]) }
    let s₃ := delay t { s₂ with txTrace := some (trace ++ [t]), bitIdx := s.bitIdx + 1 }
    .next (if s.bitIdx + 1 = buf.length then last s₃ else s₃)

/-- PHASE = TX: one bit of a standalone TRANSMIT (41 R131, R134). -/
def stepTx (s : State) : Result := txBitStep (complete (encode .transmit) .ok) s

/-- RECEIVE, acceptance step (41 R140); an empty sequence draws its elapsed time and completes at once. -/
def execReceive (s : State) : Result :=
  guarded .receive s <|
    let s' := { s with rxBuf := some s.pins.frameIn, rxSeq := some [], bitIdx := 0 }
    if s.pins.frameIn.length = 0 then .next (complete (encode .receive) .ok (drawElapsed s'))
    else .next (begin .receive .rx s')

/-- The receive bit step (41 R141) with the receive completion in the step of the last bit (41 R142). The bit is
copied unmodified, and no event is emitted. -/
def rxBitStep (last : State → State) (s : State) : Result :=
  need .rxBuf s.rxBuf fun buf =>
  need .rxSeq s.rxSeq fun seq =>
  bitAtIdx buf s fun b =>
  bitPeriod s fun t =>
    let s₁ := delay t { s with rxSeq := some (seq ++ [b]), bitIdx := s.bitIdx + 1 }
    .next (if s.bitIdx + 1 = buf.length then last (drawElapsed s₁) else s₁)

/-- PHASE = RX: one bit of a standalone RECEIVE (41 R141, R142). -/
def stepRx (s : State) : Result := rxBitStep (complete (encode .receive) .ok) s

end Sys2Proof.Machine
end

