-- ==== Sys2Proof/Machine/Codec.lean ====
section
/-! DEFINITION. The frame codec's commands ENCODE, DECODE and CALC_PARITY (40 R103 to R105). -/

namespace Sys2Proof.Machine

/-- ENCODE (40 R103). -/
def execEncode (s : State) : Result :=
  guarded .encode s <|
    .next (complete (encode .encode) .ok { s with encOut := some (encodeFrame s.pins.din s.cfg.w s.cfg.pm) })

/-- DECODE (40 R104): framing and parity errors are values; only a wrong length is a failure, which leaves DEC_OUT
unchanged. -/
def execDecode (s : State) : Result :=
  guarded .decode s <|
    match decodeFrame s.pins.frameIn s.cfg.w s.cfg.pm with
    | .shape => raise (encode .decode) .invalidFrameShape s
    | .ok d => .next (complete (encode .decode) .ok { s with decOut := some d })

/-- CALC_PARITY (40 R105). -/
def execCalcParity (s : State) : Result :=
  guarded .calcParity s <|
    .next (complete (encode .calcParity) .ok
      { s with parOut := some (parityBit (trunc s.cfg.w s.pins.din) s.cfg.w s.cfg.pm) })

end Sys2Proof.Machine
end

