-- ==== Sys2Proof/Machine/Configure.lean ====
section
/-! DEFINITION. CONFIGURE (43 R200 to R206). -/

namespace Sys2Proof.Machine

/-- CONFIGURE (43 R200): latch a valid record and set CFG_VALID, or clear CFG_VALID and raise InvalidConfiguration with
CFG's fields unchanged. It touches only CFG, CFG_VALID and STATUS (43 R204). -/
def execConfigure (s : State) : Result :=
  match latchOf s.pins.cfgIn with
  | some c => .next (complete (encode .configure) .ok { s with cfg := c, cfgValid := true })
  | none => raise (encode .configure) .invalidConfiguration { s with cfgValid := false }

end Sys2Proof.Machine
end

