-- ==== Sys2Proof/Machine/Session.lean ====
section
/-! DEFINITION. The receiver-ready synchronizer and the link-session sequencer: WAIT_READY, RUN and RUN's phases
(42 R160 to R178). -/

namespace Sys2Proof.Machine

/-- WAIT_READY, acceptance step with the first poll (42 R160). It does not read CFG. -/
def execWaitReady (s : State) : Result :=
  if s.rdy then .next (complete (encode .waitReady) .ok s)
  else .next (delay Config.backoff (begin .waitReady .poll s))

/-- PHASE = POLL (42 R160): a poll that sees RDY = 0 holds, without bound or cancellation (42 R161). -/
def stepPoll (s : State) : Result :=
  if s.rdy then .next (complete (encode .waitReady) .ok s) else .next (delay Config.backoff s)

/-- RUN, acceptance step (42 R163): the count is CFG.NB; with NB = 0 there is nothing to send. -/
def execRun (s : State) : Result :=
  guarded .run s <|
    let s' := { s with byteIdx := 0 }
    if s.cfg.nb = 0 then .next (complete (encode .run) .ok s') else .next (begin .run .rDraw s')

/-- R_DRAW: the payload draw (42 R165). -/
def stepRDraw (s : State) : Result :=
  drawValue s.cfg.w s fun v s' => .next (goto .rEncode { s' with curValue := some v })

/-- R_ENCODE (42 R166). -/
def stepREncode (s : State) : Result :=
  need .curValue s.curValue fun v =>
    .next (goto .rPoll { s with encOut := some (encodeFrame v s.cfg.w s.cfg.pm)
                                txBuf := some (encodeFrame v s.cfg.w s.cfg.pm) })

/-- R_POLL: the transmit-side guard inside RUN (42 R167), with the same hold (42 R161). -/
def stepRPoll (s : State) : Result :=
  if s.rdy then .next (goto .rTx { s with txWire := some [], txTrace := some [], bitIdx := 0 })
  else .next (delay Config.backoff s)

/-- R_TX: one bit of the byte's frame (42 R169). -/
def stepRTx (s : State) : Result := txBitStep (goto .rRxBegin) s

/-- R_RXBEGIN: ReceiverIdle to ReceiverBusy (42 R170). The receiver decodes the wire sequence. -/
def stepRRxBegin (s : State) : Result :=
  need .txWire s.txWire fun wire =>
    .next (goto .rRx { s with rdy := false, rxBuf := some wire, rxSeq := some [], bitIdx := 0 })

/-- R_RX: one received bit (42 R171). -/
def stepRRx (s : State) : Result := rxBitStep (goto .rDecode) s

/-- R_DECODE: decode, then ReceiverBusy to ReceiverIdle (42 R172). -/
def stepRDecode (s : State) : Result :=
  need .rxSeq s.rxSeq fun seq =>
    match decodeFrame seq s.cfg.w s.cfg.pm with
    | .shape => raise (encode .run) .invalidFrameShape { s with rdy := true }
    | .ok d => .next (goto .rReport { s with decOut := some d, rdy := true })

/-- R_REPORT: emit the frame summary and go on to the next byte, whatever its flags (42 R173, R176). -/
def stepRReport (s : State) : Result :=
  need .decOut s.decOut fun d =>
  need .curValue s.curValue fun sent =>
  need .rxElapsed s.rxElapsed fun t =>
    let s' := emit (.summary s.byteIdx sent d.value d.fe d.pe t) s
    let s'' := { s' with byteIdx := s.byteIdx + 1 }
    if s.byteIdx + 1 < s.cfg.nb then .next (goto .rDraw s'') else .next (complete (encode .run) .ok s'')

end Sys2Proof.Machine
end

