-- ==== Sys2Proof/Machine/Dispatch.lean ====
section
/-! DEFINITION. The meaning of an accepted command, one arm per constructor (30 R81). -/

namespace Sys2Proof.Machine

def exec (i : Instr) (s : State) : Host.Outcome State Fault Refusal :=
  match i with
  | .configure => Sys2Proof.Machine.execConfigure s
  | .encode => Sys2Proof.Machine.execEncode s
  | .decode => Sys2Proof.Machine.execDecode s
  | .calcParity => Sys2Proof.Machine.execCalcParity s
  | .transmit => Sys2Proof.Machine.execTransmit s
  | .receive => Sys2Proof.Machine.execReceive s
  | .waitReady => Sys2Proof.Machine.execWaitReady s
  | .run => Sys2Proof.Machine.execRun s

end Sys2Proof.Machine
end

