-- ==== Sys2Proof/Machine/Sequencer.lean ====
section
/-! DEFINITION. The step of a command in progress, by PHASE (10 R28). -/

namespace Sys2Proof.Machine

/-- The rule that executes each phase (10 R28). BUSY = 1 with PHASE = IDLE has none (10 R39(a); log 9). -/
def phaseStep (s : State) : Result :=
  match s.phase with
  | .idle => .fault .noRuleForControlState
  | .poll => stepPoll s
  | .tx => stepTx s
  | .rx => stepRx s
  | .rDraw => stepRDraw s
  | .rEncode => stepREncode s
  | .rPoll => stepRPoll s
  | .rTx => stepRTx s
  | .rRxBegin => stepRRxBegin s
  | .rRx => stepRRx s
  | .rDecode => stepRDecode s
  | .rReport => stepRReport s

end Sys2Proof.Machine
end

