-- ==== Sys2Proof/Machine/Acceptance.lean ====
section
/-! DEFINITION. Command acceptance and the block's one step (30 R80, R82; 70 R250, R261), and how a host offers a
command. -/

namespace Sys2Proof.Machine

/-- The offered op code is consumed (20 R63): a command runs its acceptance step; a reserved code completes at once
with IllegalCommand and changes nothing else (30 R82, 60 R224). The op code comes first in the order of checks
(60 R229). -/
def acceptOffer (s : State) : Result :=
  match decode s.pins.cmdOp with
  | .ok i => exec i s
  | .error _ => raise s.pins.cmdOp .illegalCommand s

/-- One step of the block: reset beats every command step (70 R250); a command in progress goes on, and an offer
meanwhile has no effect (70 R261); an idle block accepts an offer (10 R26) or waits for one (70 R253; log 19). -/
def blockStep (s : State) : Result :=
  if s.pins.rst then .next (resetBlock s)
  else if s.busy then phaseStep s
  else if s.pins.cmdValid then acceptOffer s
  else .next s

/-- The ports with a command offered and no reset asserted; the operand ports stay as they are. -/
def Pins.offer (op : OpCode) (p : Pins) : Pins := { p with rst := false, cmdValid := true, cmdOp := op }

/-- The state in which the very next step accepts `op`: the block is between commands (10 R39(a)) and the host offers
`op` at this step (log 14). -/
def offerOp (op : OpCode) (s : State) : State :=
  { s with busy := false, cmd := none, phase := .idle, pins := s.pins.offer op }

end Sys2Proof.Machine
end

