-- ==== Sys2Proof/Machine/Step.lean ====
section
/-! DEFINITION. The machine's step: one step of the block under the ports' present sample, after which the ports
move on to the next sample (log 2). -/

namespace Sys2Proof.Machine

/-- One step. -/
def step (s : State) : Host.Outcome State Fault Refusal := Result.mapNext tick (blockStep s)

/-- `s` with the command of the word `w` offered at the next step (log 14, log 18). -/
def State.withFetchWord (s : State) (_nbits w : Nat) : State := offerOp (opOfWord w) s

end Sys2Proof.Machine
end

