-- ==== Sys2Proof/Machine/Ports.lean ====
section
/-! DEFINITION. The output ports (10 R34) as functions of the state, and the link state (10 R24).

Reading a port has no side effect (20 R55). A port that carries a register holding "absent" cannot be read: in a
model the read faults (70 R266). TX_BUF and RX_BUF have the ports that
10 R30 gives every buffer, under names that 10 R34's table does not list (log 13). -/

namespace Sys2Proof.Machine

/-- What the block asks of the randomness collaborator (10 R35). -/
inductive RndRequest where
  | value (W : Nat)
  | prob
  deriving DecidableEq, Repr

/-- The output ports of 10 R34, and the ports of TX_BUF and RX_BUF that 10 R30 names with the other buffers'
(log 13). -/
inductive OutPort where
  | cmdReady
  | rndReq
  | statusOut
  | readyOut
  | cfgOut
  | encOut
  | parOut
  | decOut
  | txBufOut
  | txWireOut
  | txTraceOut
  | rxBufOut
  | rxSeqOut
  | rxElapsedOut
  | evOut
  deriving DecidableEq, Repr

/-- What a port carries. -/
inductive PortValue where
  | bit (b : Bit)
  | request (r : Option RndRequest)
  | status (code : BitVec 3)
  | cfg (c : Cfg) (valid : Bit)
  | bits (s : BitSeq)
  | decoded (d : Decoded)
  | times (ts : List Seconds)
  | time (t : Seconds)
  | events (es : List Event)
  deriving DecidableEq, Repr

/-- The link states of DOC's state machine (10 R24). -/
inductive LinkState where
  | receiverIdle
  | receiverBusy
  deriving DecidableEq, Repr

/-- ReceiverIdle when RDY = 1, ReceiverBusy when RDY = 0 (10 R24); not a register of its own. -/
def linkState (s : State) : LinkState := if s.rdy then .receiverIdle else .receiverBusy

/-- `rnd_req`: the draw that the step at hand asks for (10 R34, R35): a payload in R_DRAW (42 R165), a trial in a
transmit bit step while injection is on (41 R132), nothing otherwise.

DESIGN CHOICE (log 21): the port does not look at `rst`. At a step with `rst` = 1 the reset comes first and no draw is
made (70 R250); what `rnd_req` shows then the spec does not say, and the model still shows the request of the command
that is being abandoned. -/
def rndReq (s : State) : Option RndRequest :=
  if s.busy then
    match s.phase with
    | .rDraw => some (.value s.cfg.w)
    | .tx => if s.cfg.inj then some .prob else none
    | .rTx => if s.cfg.inj then some .prob else none
    | .idle => none
    | .poll => none
    | .rx => none
    | .rEncode => none
    | .rPoll => none
    | .rRxBegin => none
    | .rRx => none
    | .rDecode => none
    | .rReport => none
  else none

/-- Reading a register's port: absent faults (70 R266). -/
def portOf {α : Type} (r : Reg) (v : Option α) (k : α → PortValue) : Except Fault PortValue :=
  match v with
  | some a => .ok (k a)
  | none => .error (.absentRead r)

/-- What the host reads on a port (10 R34, R30). -/
def readPort (p : OutPort) (s : State) : Except Fault PortValue :=
  match p with
  | .cmdReady => .ok (.bit (!s.busy))
  | .rndReq => .ok (.request (rndReq s))
  | .statusOut => .ok (.status s.status.code)
  | .readyOut => .ok (.bit s.rdy)
  | .cfgOut => .ok (.cfg s.cfg s.cfgValid)
  | .encOut => portOf .encOut s.encOut .bits
  | .parOut => portOf .parOut s.parOut .bit
  | .decOut => portOf .decOut s.decOut .decoded
  | .txBufOut => portOf .txBuf s.txBuf .bits
  | .txWireOut => portOf .txWire s.txWire .bits
  | .txTraceOut => portOf .txTrace s.txTrace .times
  | .rxBufOut => portOf .rxBuf s.rxBuf .bits
  | .rxSeqOut => portOf .rxSeq s.rxSeq .bits
  | .rxElapsedOut => portOf .rxElapsed s.rxElapsed .time
  | .evOut => .ok (.events s.ev)

end Sys2Proof.Machine
end

