-- ==== Sys2Proof/Machine/HostProgram.lean ====
section
/-! DEFINITION. The host's side: command lines with their operands (30 R88) and the pseudo-instruction SEND (30 R89). -/

namespace Sys2Proof.Machine

/-- A command line: a command with the operand presented on its port (30 R88). CONFIGURE writes PM by name, so its
operand is a record with a parity mode. -/
inductive Line where
  | configure (c : Cfg)
  | encode (value : Nat)
  | calcParity (value : Nat)
  | decode (frame : BitSeq)
  | transmit (frame : BitSeq)
  | receive (frame : BitSeq)
  | waitReady
  | run
  deriving DecidableEq, Repr

/-- The command of a line; its op code is 30 R81's. -/
def Line.instr : Line → Instr
  | .configure _ => .configure
  | .encode _ => .encode
  | .calcParity _ => .calcParity
  | .decode _ => .decode
  | .transmit _ => .transmit
  | .receive _ => .receive
  | .waitReady => .waitReady
  | .run => .run

/-- A configuration as it stands on `cfg_in`, with the mode's 2-bit code (30 R76). -/
def cfgInOf (c : Cfg) : CfgIn :=
  { w := c.w, pm := modeCode c.pm, baud := c.baud, inj := c.inj, prob := c.prob, nb := c.nb }

/-- The line's operand put on its port (30 R88). -/
def Line.operand (l : Line) (p : Pins) : Pins :=
  match l with
  | .configure c => { p with cfgIn := cfgInOf c }
  | .encode v => { p with din := v }
  | .calcParity v => { p with din := v }
  | .decode f => { p with frameIn := f }
  | .transmit f => { p with frameIn := f }
  | .receive f => { p with frameIn := f }
  | .waitReady => p
  | .run => p

/-- The host presents a line: its operand and its op code, with `cmd_valid` (30 R80, R88). -/
def Line.present (l : Line) (s : State) : State :=
  { s with pins := (l.operand s.pins).offer (Sys2Proof.encode l.instr) }

/-- A result register copied to the next line's operand; an absent one cannot be read (70 R266). -/
def copied (r : Reg) (v : Option BitSeq) (k : BitSeq → Line) : Except Fault Line :=
  match v with
  | some f => .ok (k f)
  | none => .error (.absentRead r)

/-- SEND's four lines (30 R89): ENCODE v; TRANSMIT enc_out; RECEIVE tx_wire_out; DECODE rx_seq_out. The host reads each
result port when it presents the next line, so a line depends on the state before it. -/
def sendLines (v : Nat) : List (State → Except Fault Line) :=
  [ fun _ => .ok (.encode v),
    fun s => copied .encOut s.encOut .transmit,
    fun s => copied .txWire s.txWire .receive,
    fun s => copied .rxSeq s.rxSeq .decode ]

end Sys2Proof.Machine
end

