-- ==== Sys2Proof/Machine/RoundTrip.lean ====
section
/-! DEFINITION. What a serialized frame and one round trip look like from outside (41 R134; 42 R164, R174, R175): the
wire sequence, the events, the draws, and what the ports must show at each step for no draw to be kept waiting. -/

namespace Sys2Proof.Machine

/-- The wire sequence of a frame under the trials `us`: with injection each bit is flipped iff its draw is below PROB;
without it the frame goes out as it is (41 R132, R134). -/
def wireOf (c : Cfg) (frame : BitSeq) (us : List Rat) : BitSeq :=
  if c.inj then List.zipWith (fun b u => b ^^ decide (u < c.prob)) frame us else frame

/-- The BitEvents of a wire sequence, in bit order (41 R134). -/
def bitEvents (wire : BitSeq) : List Event := wire.zipIdx.map fun p => .bit p.2 p.1

/-- The trials of a frame of `n` bits: one draw in [0, 1) per bit with injection, none without it (41 R132). -/
def TrialsFor (c : Cfg) (n : Nat) (us : List Rat) : Prop :=
  if c.inj then us.length = n ∧ ∀ u ∈ us, 0 ≤ u ∧ u < 1 else us = []

/-- The answers that the bit steps of a frame of `n` bits ask for, step by step (41 R132). -/
def trialAnswers (c : Cfg) (n : Nat) (us : List Rat) : List (Option RndAnswer) :=
  if c.inj then us.map fun u => some (.prob u) else List.replicate n none

/-- The ports serve a step: no reset, and the answer the step asks for is there. -/
def Serves (p : Pins) (a : Option RndAnswer) : Prop := p.rst = false ∧ ∀ x, a = some x → p.rndAns = some x

/-- The answers asked for in the 2L + 6 steps of a byte with payload `v` and trials `us` (42 R164, R175): R_DRAW; R_ENCODE
and R_POLL; the L steps of R_TX; R_RXBEGIN, the L steps of R_RX, R_DECODE and R_REPORT. -/
def byteAnswers (c : Cfg) (v : Nat) (us : List Rat) : List (Option RndAnswer) :=
  [some (.value v), none, none] ++ trialAnswers c (frameLength c.w c.pm) us
    ++ List.replicate (frameLength c.w c.pm + 3) none

/-- The wire sequence of a byte (42 R166, R169). -/
def byteWire (c : Cfg) (v : Nat) (us : List Rat) : BitSeq := wireOf c (encodeFrame v c.w c.pm) us

/-- The events of byte `j` (42 R174): L BitEvents, then one FrameSummary with the decoded wire and the elapsed time. -/
def byteEvents (c : Cfg) (j : Nat) (elapsed : Seconds) (v : Nat) (us : List Rat) : List Event :=
  match decodeFrame (byteWire c v us) c.w c.pm with
  | .shape => bitEvents (byteWire c v us)
  | .ok d => bitEvents (byteWire c v us) ++ [.summary j v d.value d.fe d.pe elapsed]

/-- The draws of a byte in order: its payload, then its trials (42 R175). -/
def byteDraws (v : Nat) (us : List Rat) : List RndAnswer := .value v :: us.map .prob

end Sys2Proof.Machine
end

