-- ==== Sys2Proof/Machine/Timing.lean ====
section
/-! DEFINITION. Step counts and nominal durations (70 R268): facts and observables that no rule depends on (41 R144). -/

namespace Sys2Proof.Machine

/-- L of the current configuration (00 R8). -/
def State.frameBits (s : State) : Nat := frameLength s.cfg.w s.cfg.pm

/-- The steps of one round trip: 2L + 6 (42 R164). -/
def State.byteSteps (s : State) : Nat := 2 * s.frameBits + 6

/-- The steps of a command that is accepted in `s`, counting its acceptance step, when no draw is kept waiting
(70 R268); a command that fails completes in its acceptance step (60 R230). -/
def commandSteps (i : Instr) (s : State) : Nat :=
  match i with
  | .configure => 1
  | .encode => 1
  | .decode => 1
  | .calcParity => 1
  | .transmit => if s.cfgValid then 1 + s.pins.frameIn.length else 1
  | .receive => if s.cfgValid then 1 + s.pins.frameIn.length else 1
  | .waitReady => 1
  | .run => if s.cfgValid then 1 + s.cfg.nb * s.byteSteps else 1

/-- The steps a command in progress still needs when no draw is kept waiting (42 R164, R174; 70 R268). -/
def stepsLeft (s : State) : Nat :=
  let after := (s.cfg.nb - s.byteIdx - 1) * s.byteSteps
  match s.phase with
  | .idle => 0
  | .poll => 1
  | .tx => (s.txBuf.getD []).length - s.bitIdx
  | .rx => (s.rxBuf.getD []).length - s.bitIdx
  | .rDraw => after + (2 * s.frameBits + 6)
  | .rEncode => after + (2 * s.frameBits + 5)
  | .rPoll => after + (2 * s.frameBits + 4)
  | .rTx => after + ((s.frameBits - s.bitIdx) + s.frameBits + 3)
  | .rRxBegin => after + (s.frameBits + 3)
  | .rRx => after + ((s.frameBits - s.bitIdx) + 2)
  | .rDecode => after + 2
  | .rReport => after + 1

/-- The nominal real time of a command accepted in `s` (70 R268). For RUN it is the link time; the codec's time is
unstated, and for the single-step codec and configuration commands no time is given.

DESIGN CHOICE (log 22): the table does not speak of refused commands. The formula of the command's row is given for a
TRANSMIT, RECEIVE or RUN that completes NotConfigured as well, although such a command waits no bit period and
`commandSteps` gives it 1 step. -/
def nominalSeconds (i : Instr) (s : State) : Option Seconds :=
  match i with
  | .configure => none
  | .encode => none
  | .decode => none
  | .calcParity => none
  | .transmit => some ((s.pins.frameIn.length : Rat) * (1 / (s.cfg.baud : Rat)))
  | .receive => some ((s.pins.frameIn.length : Rat) * (1 / (s.cfg.baud : Rat)))
  | .waitReady => some 0
  | .run => some (((s.cfg.nb * (2 * s.frameBits) : Nat) : Rat) * (1 / (s.cfg.baud : Rat)))

end Sys2Proof.Machine
end

