-- ==== Sys2Proof/WellFormed.lean ====
section
/-! DEFINITION. What the interface can carry (10 R34, 30 R76, R78, R80).

A command word has no operand field, so every term of `Instr` is well formed; what can be ill formed is an operand on
a port: a value too wide for `din`, or a sequence too long for `frame_in`. The record of `cfg_in` has no ill-formed
value: an illegal configuration is CONFIGURE's to refuse (43 R202), not the port's. -/

namespace Sys2Proof

/-- Every command is well formed: it is one 4-bit word without operand fields (30 R80). -/
def Instr.wellFormed (_i : Instr) : Bool := true

/-- `din` carries a natural below 2^IN_WIDTH (30 R85). -/
def dinWellFormed (din : Nat) : Bool := decide (din < 2 ^ Config.inWidth)

/-- `frame_in` carries a sequence of length 0..MAX_FRAME_BITS (30 R78). -/
def frameWellFormed (s : BitSeq) : Bool := decide (s.length ≤ Config.maxFrameBits)

/-- The data ports hold values their formats can carry. -/
def Machine.Pins.wellFormed (p : Machine.Pins) : Bool := dinWellFormed p.din && frameWellFormed p.frameIn

end Sys2Proof
end

