-- ==== Sys2Proof/Safety.lean ====
section
/-! DEFINITION. What claims about runs are stated in: the invariant of the reachable states (10 R39 and the ranges of
10 R20 to R31), the collaborator's duty (70 R262, 93 I19), and the capacity of the buffers (10 R30). -/

namespace Sys2Proof.Machine

/-- The command that each phase belongs to (10 R28). -/
def Phase.owner : Phase → Option Instr
  | .idle => none
  | .poll => some .waitReady
  | .tx => some .transmit
  | .rx => some .receive
  | .rDraw => some .run
  | .rEncode => some .run
  | .rPoll => some .run
  | .rTx => some .run
  | .rRxBegin => some .run
  | .rRx => some .run
  | .rDecode => some .run
  | .rReport => some .run

/-- CFG holds only legal values (10 R20). -/
def CfgLegal (c : Cfg) : Prop :=
  1 ≤ c.w ∧ c.w ≤ Config.maxDataBits ∧ 1 ≤ c.baud ∧ 0 ≤ c.prob ∧ c.prob ≤ 1

/-- A transmit bit step can run: the wire and the trace hold one entry per bit done, and one bit is left
(10 R39(d)). -/
def Sending (s : State) : Prop :=
  ∃ buf wire trace, s.txBuf = some buf ∧ s.txWire = some wire ∧ s.txTrace = some trace
    ∧ wire.length = s.bitIdx ∧ trace.length = s.bitIdx ∧ s.bitIdx < buf.length

/-- A receive bit step can run: the bits done are copied, and one bit is left (10 R39(d)). -/
def Receiving (s : State) : Prop :=
  ∃ buf, s.rxBuf = some buf ∧ s.rxSeq = some (buf.take s.bitIdx) ∧ s.bitIdx < buf.length

/-- The byte's payload is drawn (42 R165) and below 2^W. -/
def Drawn (s : State) (v : Nat) : Prop := s.curValue = some v ∧ v < 2 ^ s.cfg.w

/-- The byte's frame is encoded and latched for transmission (42 R166). -/
def Framed (s : State) (v : Nat) : Prop :=
  Drawn s v ∧ s.encOut = some (encodeFrame v s.cfg.w s.cfg.pm) ∧ s.txBuf = some (encodeFrame v s.cfg.w s.cfg.pm)

/-- The byte's wire sequence is complete (42 R169, R177). -/
def Sent (s : State) (wire : BitSeq) : Prop := s.txWire = some wire ∧ wire.length = s.frameBits

/-- What holds in each phase besides 10 R39. PHASE = POLL is unreachable (42 R162). -/
def PhaseInv (s : State) : Prop :=
  match s.phase with
  | .idle => True
  | .poll => False
  | .tx => Sending s
  | .rx => Receiving s
  | .rDraw => True
  | .rEncode => ∃ v, Drawn s v
  | .rPoll => ∃ v, Framed s v
  | .rTx => Sending s ∧ ∃ v, Framed s v
  | .rRxBegin => ∃ v wire, Framed s v ∧ Sent s wire
  | .rRx => Receiving s ∧ ∃ v wire, Framed s v ∧ Sent s wire ∧ s.rxBuf = some wire
  | .rDecode => ∃ v wire t, Framed s v ∧ Sent s wire ∧ s.rxBuf = some wire ∧ s.rxSeq = some wire
      ∧ s.rxElapsed = some t
  | .rReport => ∃ v wire t d, Framed s v ∧ Sent s wire ∧ s.rxSeq = some wire ∧ s.rxElapsed = some t
      ∧ s.decOut = some d ∧ decodeFrame wire s.cfg.w s.cfg.pm = .ok d

/-- The invariant of the reachable states. -/
structure StateInv (s : State) : Prop where
  /-- 10 R20 -/
  cfg_legal : CfgLegal s.cfg
  /-- 10 R39(a) -/
  idle_iff : s.busy = false ↔ s.phase = .idle ∧ s.cmd = none
  /-- 10 R27, R28 -/
  cmd_of_phase : s.cmd = s.phase.owner
  /-- 10 R39(b), with its converse -/
  rdy_iff : s.rdy = false ↔ s.phase = .rRx ∨ s.phase = .rDecode
  /-- a command that reads CFG is in progress only while CFG_VALID = 1 (60 R225) -/
  valid_of_busy : s.phase ≠ .idle → s.cfgValid = true
  /-- 10 R29, while a RUN is in progress -/
  byte_of_run : s.cmd = some .run → s.byteIdx < s.cfg.nb
  /-- 10 R30 -/
  elapsed_nonneg : ∀ t, s.rxElapsed = some t → 0 ≤ t
  /-- 10 R39(d) and the presence of what the phase reads -/
  phase_inv : PhaseInv s

/-- An answer fits the request it answers (10 R35). -/
def RndAnswer.fits (a : RndAnswer) (r : RndRequest) : Prop :=
  match r, a with
  | .value W, .value v => v < 2 ^ W
  | .prob, .prob u => 0 ≤ u ∧ u < 1
  | .value _, .prob _ => False
  | .prob, .value _ => False

/-- The collaborator's duty at this step: what it answers fits the request (92 D25, 93 I19). -/
def AnswerInRange (s : State) : Prop := ∀ r a, rndReq s = some r → s.pins.rndAns = some a → a.fits r

/-- The collaborator answers at this step, in range, if it is asked (70 R262). -/
def Answered (s : State) : Prop := ∀ r, rndReq s = some r → ∃ a, s.pins.rndAns = some a ∧ a.fits r

/-- The ports of this step and of all steps to come carry only what their formats can (30 R78, R85). -/
def PinsFit (s : State) : Prop := s.pins.wellFormed = true ∧ ∀ p ∈ s.script, p.wellFormed = true

/-- A sequence register holds at most MAX_FRAME_BITS bits (10 R30). -/
def SeqFits (v : Option BitSeq) : Prop := ∀ b, v = some b → b.length ≤ Config.maxFrameBits

/-- Every sequence register is within MAX_FRAME_BITS, and so is BIT_IDX (10 R29, R30). -/
structure BuffersFit (s : State) : Prop where
  enc : SeqFits s.encOut
  txBuf : SeqFits s.txBuf
  txWire : SeqFits s.txWire
  rxBuf : SeqFits s.rxBuf
  rxSeq : SeqFits s.rxSeq
  bitIdx : s.bitIdx ≤ Config.maxFrameBits

/-- An event without its elapsed time. -/
def Event.untimed : Event → Event
  | .bit k w => .bit k w
  | .summary j v r fe pe _ => .summary j v r fe pe 0

/-- The state with everything that real time reaches blanked (41 R144): CFG.BAUD, the entries of TX_TRACE, RX_ELAPSED,
the elapsed times in EV, and the clock's index. -/
def State.untimed (s : State) : State :=
  { s with
    cfg := { s.cfg with baud := 1 }
    txTrace := s.txTrace.map fun l => l.map fun _ => 0
    rxElapsed := s.rxElapsed.map fun _ => 0
    elapsedDraws := 0
    ev := s.ev.map Event.untimed }

/-- A step that neither faults nor refuses. -/
def Result.completes (r : Result) : Prop := ∃ s, r = .next s

end Sys2Proof.Machine
end

