-- ==== Sys2Proof/Certificates/Slice0/Obligations.lean ====
section
/-! DEFINITION. The statements about the model, for the provers. Each docstring names the rules it comes from.

CL is the completion log that 60 R232 asks a model to keep; `tick` is how the ports move on after a step (log 2). Where
a statement says `core.run k`, it speaks of k steps of the machine. -/

open Sys2Proof Sys2Proof.Machine

/-! ### Encoding, acceptance, reset -/

/-- 30 R83 (with the map of 30 R81 and the reserved codes of 30 R82). -/
def Obligations.OpCodesDecodeByTheOpcodeMap : Prop :=
  decode 0x1 = .ok .configure ∧ decode 0x2 = .ok .encode ∧ decode 0x3 = .ok .decode ∧
  decode 0x4 = .ok .calcParity ∧ decode 0x5 = .ok .transmit ∧ decode 0x6 = .ok .receive ∧
  decode 0x7 = .ok .waitReady ∧ decode 0x8 = .ok .run ∧
  ∀ op : OpCode, op.toNat = 0 ∨ 9 ≤ op.toNat → decode op = .error (.reservedOpcode op)

/-- Every command has exactly one op code and every legal op code one command (30 R81). -/
def Obligations.OpCodeOfACommandIsUnique : Prop :=
  ∀ (i : Instr) (op : OpCode), decode op = .ok i ↔ op = encode i

/-- A step at which an idle block is offered a legal op code, and no reset is asserted, is the meaning of that command;
around it the machine only moves the ports on to the next sample, the model's choice of log 2 (10 R26, 30 R80). -/
def Obligations.StepRunsTheAcceptedCommand : Prop :=
  ∀ (s : State) (i : Instr), s.pins.rst = false → s.busy = false → s.pins.cmdValid = true →
    decode s.pins.cmdOp = .ok i → i.wellFormed = true →
    step s =
      match exec i s with
      | .next t => .next { t with pins := t.script.headD Pins.quiet, script := t.script.tail }
      | .fault r => .fault r
      | .refused r => .refused r

/-- 60 R224: a reserved code completes with IllegalCommand and changes no state other than STATUS (and CL, 60 R232).
The ports move on by `tick`, the model's choice (log 2). -/
def Obligations.ReservedOpCodeCompletesIllegalCommand : Prop :=
  ∀ s : State, s.pins.rst = false → s.busy = false → s.phase = .idle → s.cmd = none → s.pins.cmdValid = true →
    s.pins.cmdOp.toNat = 0 ∨ 9 ≤ s.pins.cmdOp.toNat →
    step s = .next (tick { s with status := .illegalCommand, cl := s.cl ++ [(s.pins.cmdOp, .illegalCommand)] })

/-- While BUSY = 1 the host's offer and operands have no effect: only `rst` and `rnd_ans` are read
(70 R261, 20 R60, 10 R34). -/
def Obligations.OffersAndOperandsAreIgnoredWhileBusy : Prop :=
  ∀ (s : State) (p : Pins), s.busy = true → p.rst = s.pins.rst → p.rndAns = s.pins.rndAns →
    step { s with pins := p } = step s

/-- 70 R250 and R251: one step, whatever is in progress, sets every register to its reset value and keeps EV and CL. -/
def Obligations.ResetSetsEveryRegister : Prop :=
  ∀ s : State, s.pins.rst = true → ∃ t, step s = .next t ∧
    t.cfg = { w := 8, pm := .even, baud := 9600, inj := true, prob := 1 / 20, nb := 5 } ∧ t.cfgValid = true ∧
    t.rdy = true ∧ t.status = .ok ∧ t.busy = false ∧ t.cmd = none ∧ t.phase = .idle ∧
    t.bitIdx = 0 ∧ t.byteIdx = 0 ∧ t.curValue = none ∧
    t.txBuf = none ∧ t.txWire = none ∧ t.txTrace = none ∧ t.rxBuf = none ∧ t.rxSeq = none ∧ t.rxElapsed = none ∧
    t.encOut = none ∧ t.parOut = none ∧ t.decOut = none ∧
    t.ev = s.ev ∧ t.cl = s.cl ∧ t.rndTaken = s.rndTaken

/-- State.reset holds the reset values of 10 section 10. -/
def Obligations.ResetStateHoldsTheResetValues : Prop :=
  State.reset.cfg = { w := 8, pm := .even, baud := 9600, inj := true, prob := 1 / 20, nb := 5 } ∧
  State.reset.cfgValid = true ∧ State.reset.rdy = true ∧ State.reset.status = .ok ∧ State.reset.busy = false ∧
  State.reset.cmd = none ∧ State.reset.phase = .idle ∧ State.reset.bitIdx = 0 ∧ State.reset.byteIdx = 0 ∧
  State.reset.curValue = none ∧ State.reset.txBuf = none ∧ State.reset.txWire = none ∧ State.reset.txTrace = none ∧
  State.reset.rxBuf = none ∧ State.reset.rxSeq = none ∧ State.reset.rxElapsed = none ∧
  State.reset.encOut = none ∧ State.reset.parOut = none ∧ State.reset.decOut = none

/-- An idle block that is offered nothing waits (70 R253); that this is a step that changes nothing but the ports is
the model's choice of log 19. The ports move on by `tick`, the model's choice (log 2). -/
def Obligations.IdleBlockWaitsForAnOffer : Prop :=
  ∀ s : State, s.pins.rst = false → s.busy = false → s.pins.cmdValid = false → step s = .next (tick s)

/-! ### Completion and the configuration guard -/

/-- 60 R221: what `complete(S)` and `raise S` write (CL is 60 R232's). -/
def Obligations.CompletionWritesStatusAndIdles : Prop :=
  ∀ (op : OpCode) (st : Status) (s : State),
    complete op st s =
      { s with status := st, busy := false, cmd := none, phase := .idle, cl := s.cl ++ [(op, st)] } ∧
    raise op st s = .next (complete op st s)

/-- 60 R225: with CFG_VALID = 0 every command that reads CFG completes NotConfigured and does nothing else; the guard
does not apply to CONFIGURE and WAIT_READY. -/
def Obligations.CommandsThatReadCfgNeedAValidConfiguration : Prop :=
  ∀ (s : State) (i : Instr), s.cfgValid = false →
    (i = .encode ∨ i = .decode ∨ i = .calcParity ∨ i = .transmit ∨ i = .receive ∨ i = .run →
      exec i s = .next (complete (encode i) .notConfigured s)) ∧
    (i = .configure ∨ i = .waitReady → ∀ t, exec i s = .next t → t ≠ complete (encode i) .notConfigured s)

/-! ### The commands' acceptance steps -/

/-- 43 R200 to R203: a record that passes every check is latched whole; any other clears CFG_VALID and nothing else. -/
def Obligations.ConfigureLatchesOrRefuses : Prop :=
  ∀ (s : State) (m : ParityMode),
    let c := s.pins.cfgIn
    let legal := 1 ≤ c.w ∧ c.w ≤ Config.maxDataBits ∧ c.pm ≠ 0b11 ∧ 1 ≤ c.baud ∧ 0 ≤ c.prob ∧ c.prob ≤ 1
    (legal → ((c.pm = 0b00 ∧ m = .none) ∨ (c.pm = 0b01 ∧ m = .even) ∨ (c.pm = 0b10 ∧ m = .odd)) →
      exec .configure s = .next (complete 0x1 .ok
        { s with cfg := { w := c.w, pm := m, baud := c.baud, inj := c.inj, prob := c.prob, nb := c.nb }
                 cfgValid := true })) ∧
    (¬ legal → exec .configure s = .next (complete 0x1 .invalidConfiguration { s with cfgValid := false }))

/-- 40 R103: with a valid configuration the encoded frame is written, with an invalid one nothing is. -/
def Obligations.EncodeWritesTheFrame : Prop :=
  ∀ s : State,
    (s.cfgValid = false → exec .encode s = .next (complete 0x2 .notConfigured s)) ∧
    (s.cfgValid = true →
      exec .encode s =
        .next (complete 0x2 .ok { s with encOut := some (encodeFrame s.pins.din s.cfg.w s.cfg.pm) }))

/-- 40 R104: the guard first, then the shape check, which leaves DEC_OUT unchanged; else the decoded triple is written. -/
def Obligations.DecodeWritesTheTripleOrRefusesTheShape : Prop :=
  ∀ s : State,
    let L := 2 + s.cfg.w + (if s.cfg.pm = .none then 0 else 1)
    (s.cfgValid = false → exec .decode s = .next (complete 0x3 .notConfigured s)) ∧
    (s.cfgValid = true → s.pins.frameIn.length ≠ L → exec .decode s = .next (complete 0x3 .invalidFrameShape s)) ∧
    (s.cfgValid = true → s.pins.frameIn.length = L →
      ∃ d, decodeFrame s.pins.frameIn s.cfg.w s.cfg.pm = .ok d ∧
        exec .decode s = .next (complete 0x3 .ok { s with decOut := some d }))

/-- 40 R105: with a valid configuration the parity bit of the truncated operand is written, with an invalid one
nothing is. -/
def Obligations.CalcParityWritesTheParityBit : Prop :=
  ∀ s : State,
    (s.cfgValid = false → exec .calcParity s = .next (complete 0x4 .notConfigured s)) ∧
    (s.cfgValid = true →
      exec .calcParity s =
        .next (complete 0x4 .ok { s with parOut := some (parityBit (s.pins.din % 2 ^ s.cfg.w) s.cfg.w s.cfg.pm) }))

/-- 41 R130: the frame is latched; a zero-length frame completes at once, any other starts the bit steps. -/
def Obligations.TransmitLatchesTheFrame : Prop :=
  ∀ s : State, s.cfgValid = true →
    let latched := { s with txBuf := some s.pins.frameIn, txWire := some [], txTrace := some [], bitIdx := 0 }
    (s.pins.frameIn = [] → exec .transmit s = .next (complete 0x5 .ok latched)) ∧
    (s.pins.frameIn ≠ [] →
      exec .transmit s = .next { latched with cmd := some .transmit, busy := true, phase := .tx })

/-- 41 R140: the sequence is latched; a zero-length one draws its elapsed time and completes at once. The elapsed time
is the free value Config.elapsed (log 5). -/
def Obligations.ReceiveLatchesTheSequence : Prop :=
  ∀ s : State, s.cfgValid = true →
    let latched := { s with rxBuf := some s.pins.frameIn, rxSeq := some [], bitIdx := 0 }
    (s.pins.frameIn = [] →
      exec .receive s = .next (complete 0x6 .ok
        { latched with rxElapsed := some (Config.elapsed s.elapsedDraws : Rat)
                       elapsedDraws := s.elapsedDraws + 1 })) ∧
    (s.pins.frameIn ≠ [] →
      exec .receive s = .next { latched with cmd := some .receive, busy := true, phase := .rx })

/-- 42 R160: the acceptance step polls once, each later step polls once, and CFG_VALID plays no part. The ports move
on by `tick`, the model's choice (log 2). -/
def Obligations.WaitReadyPollsTheFlag : Prop :=
  ∀ s : State,
    (s.rdy = true → exec .waitReady s = .next (complete 0x7 .ok s)) ∧
    (s.rdy = false → exec .waitReady s = .next { s with cmd := some .waitReady, busy := true, phase := .poll }) ∧
    (s.pins.rst = false → s.busy = true → s.phase = .poll → s.rdy = true →
      step s = .next (tick (complete 0x7 .ok s))) ∧
    (s.pins.rst = false → s.busy = true → s.phase = .poll → s.rdy = false → step s = .next (tick s))

/-- 42 R163: RUN takes its count from CFG.NB; NB = 0 completes at once with no draw and no event. -/
def Obligations.RunStartsOrCompletesAtOnce : Prop :=
  ∀ s : State, s.cfgValid = true →
    (s.cfg.nb = 0 → exec .run s = .next (complete 0x8 .ok { s with byteIdx := 0 })) ∧
    (s.cfg.nb ≠ 0 →
      exec .run s = .next { s with byteIdx := 0, cmd := some .run, busy := true, phase := .rDraw })

/-- The frame of every acceptance step: a command writes only its own registers (20 R53, 43 R204, 10 R23, R31, R32). -/
def Obligations.AcceptanceWritesOnlyTheCommandsRegisters : Prop :=
  ∀ (i : Instr) (s t : State), exec i s = .next t →
    (i ≠ .configure → t.cfg = s.cfg ∧ t.cfgValid = s.cfgValid) ∧
    (i ≠ .encode → t.encOut = s.encOut) ∧
    (i ≠ .decode → t.decOut = s.decOut) ∧
    (i ≠ .calcParity → t.parOut = s.parOut) ∧
    (i ≠ .transmit → t.txBuf = s.txBuf ∧ t.txWire = s.txWire ∧ t.txTrace = s.txTrace) ∧
    (i ≠ .receive → t.rxBuf = s.rxBuf ∧ t.rxSeq = s.rxSeq ∧ t.rxElapsed = s.rxElapsed ∧
      t.elapsedDraws = s.elapsedDraws) ∧
    (i ≠ .transmit → i ≠ .receive → t.bitIdx = s.bitIdx) ∧
    (i ≠ .run → t.byteIdx = s.byteIdx) ∧
    (i ≠ .transmit → i ≠ .receive → i ≠ .waitReady → i ≠ .run →
      t.busy = false ∧ t.cmd = none ∧ t.phase = .idle ∧ t.cl = s.cl ++ [(encode i, t.status)]) ∧
    (t.busy = true → t.status = s.status ∧ t.cl = s.cl ∧ t.cmd = some i) ∧
    t.rdy = s.rdy ∧ t.curValue = s.curValue ∧ t.ev = s.ev ∧ t.rndTaken = s.rndTaken ∧
    t.pins = s.pins ∧ t.script = s.script

/-- 60 R230: a command that fails in its acceptance step changes nothing but STATUS (with CL) and, for CONFIGURE,
CFG_VALID. -/
def Obligations.FailedCommandsHaveNoPartialEffect : Prop :=
  ∀ (i : Instr) (s t : State) (st : Status), s.busy = false → s.phase = .idle → s.cmd = none →
    exec i s = .next t → t.cl = s.cl ++ [(encode i, st)] → st ≠ .ok →
    t = { s with status := st, cl := s.cl ++ [(encode i, st)]
                 cfgValid := if i = .configure then false else s.cfgValid } ∧
    (i = .configure → st = .invalidConfiguration) ∧
    (i ≠ .configure → st = .notConfigured ∨ (i = .decode ∧ st = .invalidFrameShape))

/-- Every command that the block accepts answers a next state: acceptance never faults and never refuses
(60 R228, 30 R83). -/
def Obligations.EveryAcceptedCommandAnswersANextState : Prop :=
  ∀ (i : Instr) (s : State), ∃ t, exec i s = .next t

/-! ### The frame codec -/

/-- 40 R100 and R113: the parity bit says whether the number of ones among v[0..W-1] is odd, inverted under Odd; under
None it is the even convention. So it does not depend on the order of the data bits. -/
def Obligations.ParityBitCountsOnes : Prop :=
  (∀ v W : Nat,
    let ones := ((List.range W).filter fun i => v / 2 ^ i % 2 = 1).length
    parityBit v W .even = decide (ones % 2 = 1) ∧ parityBit v W .none = decide (ones % 2 = 1) ∧
    parityBit v W .odd = decide (ones % 2 = 0)) ∧
  (∀ bs bs' : BitSeq, bs.Perm bs' → xorReduce bs = xorReduce bs') ∧
  ∀ (v v' W : Nat) (pm : ParityMode), (dataBits W v).Perm (dataBits W v') → parityBit v W pm = parityBit v' W pm

/-- 30 R70 and 40 R101: the layout of a sent frame, bit by bit. -/
def Obligations.SentFrameLayout : Prop :=
  ∀ (v W : Nat) (pm : ParityMode),
    let s := encodeFrame v W pm
    let P := if pm = .none then 0 else 1
    s.length = 2 + W + P ∧ s[0]? = some false ∧
    (∀ i, i < W → s[1 + i]? = some (decide (v / 2 ^ i % 2 = 1))) ∧
    (pm ≠ .none → s[W + 1]? = some (parityBit (v % 2 ^ W) W pm)) ∧
    s[W + 1 + P]? = some true

/-- 40 R102: the shape check, the value of 30 R86, and the two flags. -/
def Obligations.DecodeFrameReadsTheFields : Prop :=
  ∀ (s : BitSeq) (W : Nat) (pm : ParityMode),
    let L := 2 + W + (if pm = .none then 0 else 1)
    (s.length ≠ L → decodeFrame s W pm = .shape) ∧
    (s.length = L → ∃ d, decodeFrame s W pm = .ok d ∧
      d.value = ∑ i ∈ Finset.range W, (if s[1 + i]? = some true then 2 ^ i else 0) ∧ d.value < 2 ^ W ∧
      (d.fe = false ↔ s[L - 1]? = some true) ∧
      (pm ≠ .none → (d.pe = false ↔ s[W + 1]? = some (parityBit d.value W pm))) ∧
      (pm = .none → d.pe = false))

/-- 40 R106: decoding a sent frame gives the value's low W bits with both flags 0, for every width, mode and value. -/
def Obligations.SentFrameDecodesToItsValue : Prop :=
  ∀ (v W : Nat) (pm : ParityMode), 1 ≤ W →
    decodeFrame (encodeFrame v W pm) W pm = .ok { value := v % 2 ^ W, fe := false, pe := false } ∧
    (v < 2 ^ W → decodeFrame (encodeFrame v W pm) W pm = .ok { value := v, fe := false, pe := false })

/-- 40 R107: one inverted data bit, or an inverted parity bit, is always reported as a parity error. -/
def Obligations.OneFlippedBitIsAParityError : Prop :=
  ∀ (v W : Nat) (pm : ParityMode), 1 ≤ W → v < 2 ^ W → pm ≠ .none →
    (∀ i, i < W → decodeFrame ((encodeFrame v W pm).modify (1 + i) not) W pm =
      .ok { value := v ^^^ 2 ^ i, fe := false, pe := true }) ∧
    decodeFrame ((encodeFrame v W pm).modify (W + 1) not) W pm = .ok { value := v, fe := false, pe := true }

/-- 40 R108: inverting a stop bit that is 1 sets FE and leaves the value and PE as they were, under every mode. -/
def Obligations.FlippedStopBitIsAFramingError : Prop :=
  ∀ (s : BitSeq) (W : Nat) (pm : ParityMode),
    let L := 2 + W + (if pm = .none then 0 else 1)
    1 ≤ W → s.length = L → s[L - 1]? = some true →
    ∃ d, decodeFrame s W pm = .ok d ∧ decodeFrame (s.modify (L - 1) not) W pm = .ok { d with fe := true }

/-- 40 R109 and R110: FE depends only on the stop bit, PE only on s[1..W+1], the value only on s[1..W]; so a data flip
together with a stop flip of a sent frame sets both flags, and two sequences that differ only at index 0 decode
alike. -/
def Obligations.ErrorChecksAreIndependent : Prop :=
  (∀ (s s' : BitSeq) (W : Nat) (pm : ParityMode) (d d' : Decoded),
    decodeFrame s W pm = .ok d → decodeFrame s' W pm = .ok d' →
    (s[s.length - 1]? = s'[s'.length - 1]? → d.fe = d'.fe) ∧
    ((∀ k, 1 ≤ k → k ≤ W + 1 → s[k]? = s'[k]?) → d.pe = d'.pe) ∧
    ((∀ k, 1 ≤ k → k ≤ W → s[k]? = s'[k]?) → d.value = d'.value)) ∧
  (∀ (v W i : Nat) (pm : ParityMode), v < 2 ^ W → i < W → pm ≠ .none →
    decodeFrame (((encodeFrame v W pm).modify (1 + i) not).modify (W + 2) not) W pm =
      .ok { value := v ^^^ 2 ^ i, fe := true, pe := true }) ∧
  ∀ (b b' : Bit) (s : BitSeq) (W : Nat) (pm : ParityMode), 1 ≤ W →
    decodeFrame (b :: s) W pm = decodeFrame (b' :: s) W pm

/-- 40 R111: an even number of inverted bits among data and parity leaves PE = 0, and the value differs from the sent
one when a data bit is among them. The mask `m` says which bits are inverted. -/
def Obligations.EvenNumberOfFlipsIsUndetected : Prop :=
  ∀ (v W : Nat) (pm : ParityMode) (m : BitSeq), 1 ≤ W → v < 2 ^ W → pm ≠ .none → m.length = W + 3 →
    ((m.drop 1).take (W + 1)).count true % 2 = 0 →
    ∃ d, decodeFrame (List.zipWith xor (encodeFrame v W pm) m) W pm = .ok d ∧ d.pe = false ∧
      ((∃ i, i < W ∧ m[1 + i]? = some true) → d.value ≠ v)

/-- 40 R114: data and parity bits of a sent frame hold an even number of ones under Even, an odd one under Odd. -/
def Obligations.SentFrameOnesMatchTheMode : Prop :=
  ∀ v W : Nat,
    (((encodeFrame v W .even).drop 1).take (W + 1)).count true % 2 = 0 ∧
    (((encodeFrame v W .odd).drop 1).take (W + 1)).count true % 2 = 1

/-! ### The channel -/

/-- 41 R132: the injector's trial, with its exact consequences at PROB = 0 and PROB = 1. -/
def Obligations.InjectionTrialComparesWithProb : Prop :=
  ∀ (s : State) (k : Bit → State → Result),
    (s.cfg.inj = false → injectTrial s k = k false s) ∧
    ∀ u : Rat, s.cfg.inj = true → s.pins.rndAns = some (.prob u) → 0 ≤ u → u < 1 →
      let s' := { s with rndTaken := s.rndTaken ++ [.prob u] }
      (u < s.cfg.prob → injectTrial s k = k true s') ∧
      (¬ u < s.cfg.prob → injectTrial s k = k false s') ∧
      (s.cfg.prob = 0 → injectTrial s k = k false s') ∧
      (s.cfg.prob = 1 → injectTrial s k = k true s')

/-- 41 R131: one transmit bit step, in PHASE = TX and in PHASE = R_TX, with or without injection. The ports move on
by `tick`, the model's choice (log 2). -/
def Obligations.TransmitBitStepSendsOneBit : Prop :=
  ∀ (s : State) (buf wire : BitSeq) (trace : List Seconds) (b f : Bit) (drawn : List RndAnswer),
    s.pins.rst = false → s.busy = true → s.phase = .tx ∨ s.phase = .rTx →
    s.txBuf = some buf → s.txWire = some wire → s.txTrace = some trace → buf[s.bitIdx]? = some b →
    1 ≤ s.cfg.baud →
    ((s.cfg.inj = false ∧ f = false ∧ drawn = []) ∨
      ∃ u, s.cfg.inj = true ∧ s.pins.rndAns = some (.prob u) ∧ 0 ≤ u ∧ u < 1 ∧
        f = decide (u < s.cfg.prob) ∧ drawn = [.prob u]) →
    let sent := { s with
      txWire := some (wire ++ [b ^^ f])
      ev := s.ev ++ [.bit s.bitIdx (b ^^ f)]
      txTrace := some (trace ++ [1 / (s.cfg.baud : Rat)])
      bitIdx := s.bitIdx + 1
      rndTaken := s.rndTaken ++ drawn }
    (s.bitIdx + 1 ≠ buf.length → step s = .next (tick sent)) ∧
    (s.bitIdx + 1 = buf.length → s.phase = .tx → step s = .next (tick (complete 0x5 .ok sent))) ∧
    (s.bitIdx + 1 = buf.length → s.phase = .rTx → step s = .next (tick { sent with phase := .rRxBegin }))

/-- 41 R141 and R142: one receive bit step, in PHASE = RX and in PHASE = R_RX; the last one draws the elapsed time, a
free value (41 R143; log 5). The ports move on by `tick`, the model's choice (log 2). -/
def Obligations.ReceiveBitStepCopiesOneBit : Prop :=
  ∀ (s : State) (buf seq : BitSeq) (b : Bit),
    s.pins.rst = false → s.busy = true → s.phase = .rx ∨ s.phase = .rRx →
    s.rxBuf = some buf → s.rxSeq = some seq → buf[s.bitIdx]? = some b → 1 ≤ s.cfg.baud →
    let copied := { s with rxSeq := some (seq ++ [b]), bitIdx := s.bitIdx + 1 }
    let timed := { copied with
      rxElapsed := some (Config.elapsed s.elapsedDraws : Rat)
      elapsedDraws := s.elapsedDraws + 1 }
    (s.bitIdx + 1 ≠ buf.length → step s = .next (tick copied)) ∧
    (s.bitIdx + 1 = buf.length → s.phase = .rx → step s = .next (tick (complete 0x6 .ok timed))) ∧
    (s.bitIdx + 1 = buf.length → s.phase = .rRx → step s = .next (tick { timed with phase := .rDecode }))

/-- 41 R134 with the step count of 70 R268: an accepted TRANSMIT of n bits whose draws are all answered completes after
exactly 1 + n steps; the wire is the frame XOR the trials, and TX_TRACE, EV and the draws are as the rule says. The
answers stand in the port samples of `script`, the model's choice (log 2). -/
def Obligations.TransmitCompletesAfterOneStepPerBit : Prop :=
  ∀ (s : State) (us : List Rat),
    let n := s.pins.frameIn.length
    s.pins.rst = false → s.busy = false → s.pins.cmdValid = true → s.pins.cmdOp = 0x5 → s.cfgValid = true →
    1 ≤ s.cfg.baud → TrialsFor s.cfg n us →
    List.Forall₂ Serves (s.script.take n) (trialAnswers s.cfg n us) →
    ∃ t, Host.Core.run core (1 + n) s = .next t ∧
      t.status = .ok ∧ t.busy = false ∧ t.phase = .idle ∧ t.cmd = none ∧ t.cl = s.cl ++ [(0x5, .ok)] ∧
      t.txBuf = some s.pins.frameIn ∧ t.txWire = some (wireOf s.cfg s.pins.frameIn us) ∧
      (wireOf s.cfg s.pins.frameIn us).length = n ∧
      t.txTrace = some (List.replicate n (1 / (s.cfg.baud : Rat))) ∧
      t.ev = s.ev ++ bitEvents (wireOf s.cfg s.pins.frameIn us) ∧
      t.rndTaken = s.rndTaken ++ us.map .prob ∧
      t.rdy = s.rdy ∧ t.cfg = s.cfg ∧ t.cfgValid = s.cfgValid ∧ t.rxSeq = s.rxSeq ∧ t.encOut = s.encOut ∧
      t.parOut = s.parOut ∧ t.decOut = s.decOut

/-- 41 R142 with the step count of 70 R268: an accepted RECEIVE of n bits completes after exactly 1 + n steps with
RX_SEQ = RX_BUF, no draw from the collaborator and no event. RX_ELAPSED is a free value (log 5); the ports stand in
`script`, the model's choice (log 2). -/
def Obligations.ReceiveCopiesTheWholeSequence : Prop :=
  ∀ s : State,
    let n := s.pins.frameIn.length
    s.pins.rst = false → s.busy = false → s.pins.cmdValid = true → s.pins.cmdOp = 0x6 → s.cfgValid = true →
    1 ≤ s.cfg.baud → n ≤ s.script.length → (∀ p ∈ s.script.take n, p.rst = false) →
    ∃ t, Host.Core.run core (1 + n) s = .next t ∧
      t.status = .ok ∧ t.busy = false ∧ t.phase = .idle ∧ t.cmd = none ∧ t.cl = s.cl ++ [(0x6, .ok)] ∧
      t.rxBuf = some s.pins.frameIn ∧ t.rxSeq = some s.pins.frameIn ∧
      t.rxElapsed = some (Config.elapsed s.elapsedDraws : Rat) ∧
      t.ev = s.ev ∧ t.rndTaken = s.rndTaken ∧ t.rdy = s.rdy ∧ t.cfg = s.cfg ∧ t.cfgValid = s.cfgValid ∧
      t.txBuf = s.txBuf ∧ t.txWire = s.txWire ∧ t.encOut = s.encOut ∧ t.decOut = s.decOut

/-- A draw that is not answered holds the block: the step changes nothing but the ports (70 R262), the model's
reading of a hold (log 8). The ports move on by `tick`, the model's choice (log 2). -/
def Obligations.UnansweredDrawHoldsTheBlock : Prop :=
  ∀ (s : State) (r : RndRequest), StateInv s → s.pins.rst = false → rndReq s = some r → s.pins.rndAns = none →
    step s = .next (tick s)

/-! ### The session -/

/-- 42 R165 and R166: the payload draw and the encode phase of RUN. The ports move on by `tick`, the model's choice
(log 2). -/
def Obligations.RunDrawsAndEncodesThePayload : Prop :=
  ∀ (s : State) (v : Nat), s.pins.rst = false → s.busy = true →
    (s.phase = .rDraw → s.pins.rndAns = some (.value v) → v < 2 ^ s.cfg.w →
      step s = .next (tick { s with curValue := some v, phase := .rEncode
                                    rndTaken := s.rndTaken ++ [.value v] })) ∧
    (s.phase = .rEncode → s.curValue = some v →
      step s = .next (tick { s with encOut := some (encodeFrame v s.cfg.w s.cfg.pm)
                                    txBuf := some (encodeFrame v s.cfg.w s.cfg.pm), phase := .rPoll }))

/-- 42 R167 and R170: the guard inside RUN, and the transition to ReceiverBusy. The ports move on by `tick`, the
model's choice (log 2). -/
def Obligations.RunPollsAndEntersReceiverBusy : Prop :=
  ∀ s : State, s.pins.rst = false → s.busy = true →
    (s.phase = .rPoll → s.rdy = true →
      step s = .next (tick { s with txWire := some [], txTrace := some [], bitIdx := 0, phase := .rTx })) ∧
    (s.phase = .rPoll → s.rdy = false → step s = .next (tick s)) ∧
    ∀ wire, s.phase = .rRxBegin → s.txWire = some wire →
      step s = .next (tick { s with rdy := false, rxBuf := some wire, rxSeq := some [], bitIdx := 0, phase := .rRx })

/-- 42 R172: the decode phase of RUN writes DEC_OUT and leaves ReceiverBusy; a shape error would end the run. The
ports move on by `tick`, the model's choice (log 2). -/
def Obligations.RunDecodesAndLeavesReceiverBusy : Prop :=
  ∀ (s : State) (seq : BitSeq), s.pins.rst = false → s.busy = true → s.phase = .rDecode → s.rxSeq = some seq →
    (∀ d, decodeFrame seq s.cfg.w s.cfg.pm = .ok d →
      step s = .next (tick { s with decOut := some d, rdy := true, phase := .rReport })) ∧
    (decodeFrame seq s.cfg.w s.cfg.pm = .shape →
      step s = .next (tick (complete 0x8 .invalidFrameShape { s with rdy := true })))

/-- 42 R173 and R176: the summary is emitted, and the run goes on to the next byte whatever the two flags are. The
ports move on by `tick`, the model's choice (log 2). -/
def Obligations.RunReportsAndGoesOn : Prop :=
  ∀ (s : State) (d : Decoded) (v : Nat) (e : Seconds), s.pins.rst = false → s.busy = true → s.phase = .rReport →
    s.decOut = some d → s.curValue = some v → s.rxElapsed = some e →
    let reported := { s with ev := s.ev ++ [.summary s.byteIdx v d.value d.fe d.pe e], byteIdx := s.byteIdx + 1 }
    (s.byteIdx + 1 < s.cfg.nb → step s = .next (tick { reported with phase := .rDraw })) ∧
    (¬ s.byteIdx + 1 < s.cfg.nb → step s = .next (tick (complete 0x8 .ok reported)))

/-- 10 R23: apart from reset, RDY is written 0 in R_RXBEGIN and 1 in R_DECODE, and by nothing else. -/
def Obligations.OnlyTwoPhasesWriteRdy : Prop :=
  ∀ s t : State, s.pins.rst = false → step s = .next t → t.rdy ≠ s.rdy →
    s.busy = true ∧ ((s.phase = .rRxBegin ∧ t.rdy = false) ∨ (s.phase = .rDecode ∧ t.rdy = true))

/-- 42 R162 and R168: whenever a poll executes, and throughout every transmission, RDY = 1; PHASE = POLL is never
entered. -/
def Obligations.TheGuardAlwaysPasses : Prop :=
  ∀ s : State, StateInv s →
    (s.busy = false ∨ s.phase = .rPoll ∨ s.phase = .rTx ∨ s.phase = .tx → s.rdy = true) ∧ s.phase ≠ .poll ∧
    (s.pins.rst = false → s.busy = true → s.phase = .rPoll → ∃ t, step s = .next t ∧ t.phase = .rTx)

/-- 42 R177: in a run every sequence has length L, so the decode phase never sees a shape error. -/
def Obligations.NoShapeErrorInARun : Prop :=
  ∀ s : State, StateInv s → s.pins.rst = false → s.phase = .rDecode →
    ∃ frame wire d t, s.txBuf = some frame ∧ s.txWire = some wire ∧ s.rxBuf = some wire ∧ s.rxSeq = some wire ∧
      frame.length = frameLength s.cfg.w s.cfg.pm ∧ wire.length = frameLength s.cfg.w s.cfg.pm ∧
      step s = .next t ∧ t.phase = .rReport ∧ t.decOut = some d ∧ t.rdy = true

/-- 42 R178: when the wire carries the sent frame (every trial lost), the summary reports the value sent and no
error. -/
def Obligations.ErrorFreeRoundTripReportsTheSentValue : Prop :=
  ∀ s : State, StateInv s → s.pins.rst = false → s.phase = .rReport → s.txWire = s.txBuf →
    ∃ v e t, s.curValue = some v ∧ s.rxElapsed = some e ∧ step s = .next t ∧
      t.ev = s.ev ++ [.summary s.byteIdx v v false false e]

/-- 42 R174 and R175: a RUN accepted with CFG_VALID = 1 and NB ≥ 1 whose draws are all answered completes OK after
exactly 1 + NB (2L + 6) steps, with the events, the draws in order, and the last byte's values as the rules say. The
answers stand in `script`, the model's choice (log 2); the elapsed times are free values (log 5). -/
def Obligations.RunCompletesWithEveryByteReported : Prop :=
  ∀ (s : State) (bytes : List (Nat × List Rat)),
    let c := s.cfg
    let answers := bytes.flatMap fun b => byteAnswers c b.1 b.2
    StateInv s → s.pins.rst = false → s.busy = false → s.pins.cmdValid = true → s.pins.cmdOp = 0x8 → s.cfgValid = true →
    1 ≤ c.nb → bytes.length = c.nb →
    (∀ b ∈ bytes, b.1 < 2 ^ c.w ∧ TrialsFor c (frameLength c.w c.pm) b.2) →
    List.Forall₂ Serves (s.script.take (c.nb * (2 * frameLength c.w c.pm + 6))) answers →
    ∃ t, Host.Core.run core (1 + c.nb * (2 * frameLength c.w c.pm + 6)) s = .next t ∧
      t.status = .ok ∧ t.busy = false ∧ t.phase = .idle ∧ t.cmd = none ∧ t.cl = s.cl ++ [(0x8, .ok)] ∧
      t.rdy = true ∧ t.byteIdx = c.nb ∧ t.cfg = c ∧ t.cfgValid = true ∧
      t.ev = s.ev ++ bytes.zipIdx.flatMap
        (fun b => byteEvents c b.2 (Config.elapsed (s.elapsedDraws + b.2) : Rat) b.1.1 b.1.2) ∧
      t.rndTaken = s.rndTaken ++ bytes.flatMap (fun b => byteDraws b.1 b.2) ∧
      ∀ v us, bytes.getLast? = some (v, us) →
        t.curValue = some v ∧ t.encOut = some (encodeFrame v c.w c.pm) ∧ t.txBuf = some (encodeFrame v c.w c.pm) ∧
        t.txWire = some (byteWire c v us) ∧ t.rxBuf = some (byteWire c v us) ∧ t.rxSeq = some (byteWire c v us) ∧
        t.txTrace = some (List.replicate (frameLength c.w c.pm) (1 / (c.baud : Rat))) ∧
        t.rxElapsed = some (Config.elapsed (s.elapsedDraws + (c.nb - 1)) : Rat) ∧
        ∃ d, decodeFrame (byteWire c v us) c.w c.pm = .ok d ∧ t.decOut = some d

/-- 30 R89: SEND v, presented line by line to a configured idle block with injection off and quiet ports, leaves
(v mod 2^W, 0, 0) in DEC_OUT, consumes no answer, and leaves RDY as it was. That the ports are quiet after each line is
the model's choice (log 2). -/
def Obligations.SendRoundTripsTheValue : Prop :=
  ∀ (s : State) (v : Nat), StateInv s → s.busy = false → s.cfgValid = true → s.cfg.inj = false → s.script = [] →
    let L := frameLength s.cfg.w s.cfg.pm
    ∃ f s₁ s₂ s₃ s₄,
      Host.Core.run core 1 ((Line.encode v).present s) = .next s₁ ∧ s₁.encOut = some f ∧
      Host.Core.run core (1 + L) ((Line.transmit f).present s₁) = .next s₂ ∧ s₂.txWire = some f ∧
      Host.Core.run core (1 + L) ((Line.receive f).present s₂) = .next s₃ ∧ s₃.rxSeq = some f ∧
      Host.Core.run core 1 ((Line.decode f).present s₃) = .next s₄ ∧
      s₄.decOut = some { value := v % 2 ^ s.cfg.w, fe := false, pe := false } ∧
      s₄.status = .ok ∧ s₄.busy = false ∧ s₄.rdy = s.rdy ∧ s₄.rndTaken = s.rndTaken ∧
      s₄.ev = s.ev ++ bitEvents f ∧
      s₄.cl = s.cl ++ [(0x2, .ok), (0x5, .ok), (0x6, .ok), (0x3, .ok)]

/-! ### Invariants, safety, progress -/

/-- The reset state satisfies the invariant (10 R39, 70 R250), holds no sequence that is too long (10 R30), and its ports
are within their formats (30 R78, R85). The last rests on the quiet ports and the empty script that State.reset has by
the model's choice (log 3). -/
def Obligations.ResetStateSatisfiesTheInvariant : Prop :=
  StateInv State.reset ∧ BuffersFit State.reset ∧ PinsFit State.reset

/-- 10 R39: the invariant, with the legality of CFG (10 R20), what each phase needs (10 R39(d)) and the receiver's state
(10 R39(b)), is kept by every step from every state that has it, reset steps and all offers included. -/
def Obligations.EveryStepKeepsTheInvariant : Prop :=
  ∀ s t : State, StateInv s → step s = .next t → StateInv t

/-- From every state with the invariant, a step whose answer, if any, is in range answers a next state: no fault and no
refusal is ever reached (60 R228; 93 I9, I19, I21). -/
def Obligations.NoStepFaultsUnderTheInvariant : Prop :=
  ∀ s : State, StateInv s → AnswerInRange s → ∃ t, step s = .next t

/-- 10 R29 and R30: no sequence register ever holds more than MAX_FRAME_BITS bits, and BIT_IDX stays within it, when
the ports carry only what their formats can (30 R78, R85), which the model takes as a premise (log 15). That the next
sample is within its formats as well rests on `tick`: it is the head of `script`, or quiet ports, by the model's choice
(log 2). -/
def Obligations.SequencesStayWithinMaxFrameBits : Prop :=
  ∀ s t : State, StateInv s → BuffersFit s → PinsFit s → step s = .next t → BuffersFit t ∧ PinsFit t

/-- 70 R268, 42 R164 and R174: a command in progress whose draw, if any, is answered needs exactly one step less after
each step, and it has completed when none is left. -/
def Obligations.EveryAnsweredStepMakesProgress : Prop :=
  ∀ s : State, StateInv s → s.busy = true → s.pins.rst = false → Answered s →
    ∃ t, step s = .next t ∧ stepsLeft t + 1 = stepsLeft s ∧ (t.busy = false ↔ stepsLeft s = 1)

/-- 70 R268: after the acceptance step a command needs exactly the steps of the table. -/
def Obligations.AcceptedCommandsNeedTheStepsOfTheTable : Prop :=
  ∀ (i : Instr) (s t : State), StateInv s → s.busy = false → exec i s = .next t →
    1 + stepsLeft t = commandSteps i s ∧ (t.busy = false ↔ commandSteps i s = 1)

/-- 41 R144: two states that differ only in what real time reaches (BAUD, TX_TRACE's entries, RX_ELAPSED, the elapsed
times in EV, and the clock) step alike, and differ again only in that. -/
def Obligations.TimingNeverChangesAResult : Prop :=
  ∀ s t : State, 1 ≤ s.cfg.baud → 1 ≤ t.cfg.baud → s.untimed = t.untimed →
    Result.mapNext State.untimed (step s) = Result.mapNext State.untimed (step t)

/-! ### What steps leave alone -/

/-- 10 R33, 20 R55, 60 R232, 70 R251 and R252: EV, CL and the consumed answers only ever grow. -/
def Obligations.HistoriesOnlyGrow : Prop :=
  ∀ s t : State, step s = .next t → s.ev <+: t.ev ∧ s.cl <+: t.cl ∧ s.rndTaken <+: t.rndTaken

/-- 10 R20, R21 and 43 R205: CFG and CFG_VALID change only in a reset step or in the acceptance step of CONFIGURE. -/
def Obligations.OnlyConfigureAndResetWriteCfg : Prop :=
  ∀ s t : State, step s = .next t → t.cfg ≠ s.cfg ∨ t.cfgValid ≠ s.cfgValid →
    s.pins.rst = true ∨ (s.busy = false ∧ s.pins.cmdValid = true ∧ s.pins.cmdOp = 0x1)

/-- 10 R25: apart from reset, STATUS is written by completions only, each of which is logged in CL and leaves the block
idle. -/
def Obligations.StatusIsWrittenByCompletionsOnly : Prop :=
  ∀ s t : State, s.pins.rst = false → step s = .next t →
    (t.status = s.status ∧ t.cl = s.cl) ∨
      ∃ op, t.cl = s.cl ++ [(op, t.status)] ∧ t.busy = false ∧ t.cmd = none ∧ t.phase = .idle

/-- 10 R33: a step emits at most one event: a BitEvent in a transmit bit step, a FrameSummary in R_REPORT, and nothing
in any other step. -/
def Obligations.EventsComeFromTransmitAndReportSteps : Prop :=
  ∀ s t : State, step s = .next t → t.ev ≠ s.ev →
    s.pins.rst = false ∧ s.busy = true ∧
    (((s.phase = .tx ∨ s.phase = .rTx) ∧ ∃ w, t.ev = s.ev ++ [.bit s.bitIdx w]) ∨
      (s.phase = .rReport ∧ ∃ v r fe pe e, t.ev = s.ev ++ [.summary s.byteIdx v r fe pe e]))

/-- 41 R132, 42 R165 and 10 R38: an answer is consumed only in a step that asks for it, and then it is the one on the
port, in range. -/
def Obligations.AnswersAreConsumedOnlyWhenAsked : Prop :=
  ∀ s t : State, step s = .next t → t.rndTaken ≠ s.rndTaken →
    ∃ r a, rndReq s = some r ∧ s.pins.rndAns = some a ∧ a.fits r ∧ t.rndTaken = s.rndTaken ++ [a]

/-- 10 R31 and R32: a command in progress never writes CFG, CFG_VALID or PAR_OUT; DEC_OUT is written in R_DECODE only,
ENC_OUT in R_ENCODE only, and TX_BUF and RX_BUF are not modified once latched (10 R30). -/
def Obligations.CommandsInProgressWriteOnlyTheirRegisters : Prop :=
  ∀ s t : State, s.pins.rst = false → s.busy = true → step s = .next t →
    t.cfg = s.cfg ∧ t.cfgValid = s.cfgValid ∧ t.parOut = s.parOut ∧
    (s.phase ≠ .rDecode → t.decOut = s.decOut) ∧
    (s.phase ≠ .rEncode → t.encOut = s.encOut ∧ t.txBuf = s.txBuf) ∧
    (s.phase ≠ .rRxBegin → t.rxBuf = s.rxBuf) ∧
    (s.phase ≠ .rDraw → t.curValue = s.curValue) ∧
    (s.phase ≠ .tx → s.phase ≠ .rTx → s.phase ≠ .rPoll → t.txWire = s.txWire ∧ t.txTrace = s.txTrace) ∧
    (s.phase ≠ .rx → s.phase ≠ .rRx → s.phase ≠ .rRxBegin → t.rxSeq = s.rxSeq) ∧
    (s.phase ≠ .rx → s.phase ≠ .rRx → t.rxElapsed = s.rxElapsed ∧ t.elapsedDraws = s.elapsedDraws) ∧
    (s.phase ≠ .rReport → t.byteIdx = s.byteIdx)

/-! ### Ports -/

/-- 70 R266 and 00 R14: reading a result port whose register is absent faults; otherwise it shows the register
(10 R34, R30). Reading changes nothing: a port is a function of the state (20 R55). That TX_BUF and RX_BUF have ports of
these names is log 13. -/
def Obligations.ResultPortsShowTheRegisterOrFault : Prop :=
  ∀ s : State,
    (s.encOut = none → readPort .encOut s = .error (.absentRead .encOut)) ∧
    (∀ f, s.encOut = some f → readPort .encOut s = .ok (.bits f)) ∧
    (s.parOut = none → readPort .parOut s = .error (.absentRead .parOut)) ∧
    (∀ b, s.parOut = some b → readPort .parOut s = .ok (.bit b)) ∧
    (s.decOut = none → readPort .decOut s = .error (.absentRead .decOut)) ∧
    (∀ d, s.decOut = some d → readPort .decOut s = .ok (.decoded d)) ∧
    (s.txBuf = none → readPort .txBufOut s = .error (.absentRead .txBuf)) ∧
    (∀ f, s.txBuf = some f → readPort .txBufOut s = .ok (.bits f)) ∧
    (s.txWire = none → readPort .txWireOut s = .error (.absentRead .txWire)) ∧
    (∀ f, s.txWire = some f → readPort .txWireOut s = .ok (.bits f)) ∧
    (s.txTrace = none → readPort .txTraceOut s = .error (.absentRead .txTrace)) ∧
    (∀ l, s.txTrace = some l → readPort .txTraceOut s = .ok (.times l)) ∧
    (s.rxBuf = none → readPort .rxBufOut s = .error (.absentRead .rxBuf)) ∧
    (∀ f, s.rxBuf = some f → readPort .rxBufOut s = .ok (.bits f)) ∧
    (s.rxSeq = none → readPort .rxSeqOut s = .error (.absentRead .rxSeq)) ∧
    (∀ f, s.rxSeq = some f → readPort .rxSeqOut s = .ok (.bits f)) ∧
    (s.rxElapsed = none → readPort .rxElapsedOut s = .error (.absentRead .rxElapsed)) ∧
    (∀ e, s.rxElapsed = some e → readPort .rxElapsedOut s = .ok (.time e))
end

