-- ==== Sys2Proof/Laws/Codec.lean ====
section
/-! SUPPORT. The small facts of the frame format that proofs about the codec build on (40 R100 to R102; 30 R70, R86). -/

namespace Sys2Proof.Machine

@[simp] theorem dataBits_length (W v : Nat) : (dataBits W v).length = W := by simp [dataBits]

theorem dataBits_getElem? {W v i : Nat} (h : i < W) : (dataBits W v)[i]? = some (v.testBit i) := by
  simp [dataBits, bitOf, List.getElem?_range h]

@[simp] theorem parityField_length (v W : Nat) (pm : ParityMode) : (parityField v W pm).length = pm.count := by
  cases pm <;> rfl

/-- A sent frame is well-shaped (40 R101). -/
@[simp] theorem encodeFrame_length (v W : Nat) (pm : ParityMode) :
    (encodeFrame v W pm).length = frameLength W pm := by
  simp [encodeFrame, frameLength]; omega

theorem valueOf_lt (s : BitSeq) : valueOf s < 2 ^ s.length := by
  induction s with
  | nil => simp [valueOf]
  | cons b bs ih =>
    have hb : b.toNat ≤ 1 := by cases b <;> decide
    simp only [valueOf, List.length_cons, pow_succ]
    omega

/-- Reassembly is the sum of 30 R86, taken bit by bit: bit i of the value is bit i of the sequence. -/
theorem valueOf_testBit (s : BitSeq) (i : Nat) : (valueOf s).testBit i = s[i]?.getD false := by
  induction s generalizing i with
  | nil => simp [valueOf]
  | cons b bs ih =>
    cases i with
    | zero => cases b <;> simp [valueOf]
    | succ i =>
      have h : (b.toNat + 2 * valueOf bs) / 2 = valueOf bs := by
        have hb : b.toNat ≤ 1 := by cases b <;> decide
        omega
      simp [valueOf, Nat.testBit_succ, h, ih]

/-- The data bits of a value below 2^W reassemble to it. -/
theorem valueOf_dataBits (W v : Nat) : valueOf (dataBits W v) = v % 2 ^ W := by
  refine Nat.eq_of_testBit_eq fun i => ?_
  rw [valueOf_testBit, Nat.testBit_mod_two_pow]
  by_cases h : i < W
  · rw [dataBits_getElem? h]; simp [h]
  · simp [h]

@[simp] theorem xorReduce_nil : xorReduce [] = false := rfl
@[simp] theorem xorReduce_cons (b : Bit) (bs : BitSeq) : xorReduce (b :: bs) = (b ^^ xorReduce bs) := rfl

theorem xorReduce_append (s t : BitSeq) : xorReduce (s ++ t) = (xorReduce s ^^ xorReduce t) := by
  induction s with
  | nil => simp
  | cons b bs ih => simp [ih]

/-- The shape check of the decoder (40 R102). -/
theorem decodeFrame_shape {s : BitSeq} {W : Nat} {pm : ParityMode} :
    decodeFrame s W pm = .shape ↔ s.length ≠ frameLength W pm := by
  unfold decodeFrame; split <;> simp_all

/-- What the decoder answers for a well-shaped sequence (40 R102). -/
theorem decodeFrame_ok {s : BitSeq} {W : Nat} {pm : ParityMode} (h : s.length = frameLength W pm) :
    decodeFrame s W pm =
      .ok { value := valueOf ((s.drop 1).take W)
            fe := framingError s (frameLength W pm)
            pe := parityError s (valueOf ((s.drop 1).take W)) W pm } := by
  simp [decodeFrame, h]

theorem decodeFrame_value_lt {s : BitSeq} {W : Nat} {pm : ParityMode} {d : Decoded} (h : decodeFrame s W pm = .ok d) :
    d.value < 2 ^ W := by
  unfold decodeFrame at h
  split at h
  · simp at h
  · injection h with h
    subst h
    refine lt_of_lt_of_le (valueOf_lt _) (Nat.pow_le_pow_right (by decide) ?_)
    simp

end Sys2Proof.Machine
end

