-- ==== Sys2Proof/Laws/State.lean ====
section
/-! SUPPORT. What each state update of Machine/Ops.lean does to each field of State: one lemma per field per update, true
by definition, so that no later proof unfolds an update. -/

namespace Sys2Proof.Machine

section
variable (s : State)

@[simp] theorem complete_cfg (op : OpCode) (st : Status) : (complete op st s).cfg = s.cfg := rfl
@[simp] theorem complete_cfgValid (op : OpCode) (st : Status) : (complete op st s).cfgValid = s.cfgValid := rfl
@[simp] theorem complete_rdy (op : OpCode) (st : Status) : (complete op st s).rdy = s.rdy := rfl
@[simp] theorem complete_status (op : OpCode) (st : Status) : (complete op st s).status = st := rfl
@[simp] theorem complete_busy (op : OpCode) (st : Status) : (complete op st s).busy = false := rfl
@[simp] theorem complete_cmd (op : OpCode) (st : Status) : (complete op st s).cmd = none := rfl
@[simp] theorem complete_phase (op : OpCode) (st : Status) : (complete op st s).phase = .idle := rfl
@[simp] theorem complete_bitIdx (op : OpCode) (st : Status) : (complete op st s).bitIdx = s.bitIdx := rfl
@[simp] theorem complete_byteIdx (op : OpCode) (st : Status) : (complete op st s).byteIdx = s.byteIdx := rfl
@[simp] theorem complete_curValue (op : OpCode) (st : Status) : (complete op st s).curValue = s.curValue := rfl
@[simp] theorem complete_txBuf (op : OpCode) (st : Status) : (complete op st s).txBuf = s.txBuf := rfl
@[simp] theorem complete_txWire (op : OpCode) (st : Status) : (complete op st s).txWire = s.txWire := rfl
@[simp] theorem complete_txTrace (op : OpCode) (st : Status) : (complete op st s).txTrace = s.txTrace := rfl
@[simp] theorem complete_rxBuf (op : OpCode) (st : Status) : (complete op st s).rxBuf = s.rxBuf := rfl
@[simp] theorem complete_rxSeq (op : OpCode) (st : Status) : (complete op st s).rxSeq = s.rxSeq := rfl
@[simp] theorem complete_rxElapsed (op : OpCode) (st : Status) : (complete op st s).rxElapsed = s.rxElapsed := rfl
@[simp] theorem complete_encOut (op : OpCode) (st : Status) : (complete op st s).encOut = s.encOut := rfl
@[simp] theorem complete_parOut (op : OpCode) (st : Status) : (complete op st s).parOut = s.parOut := rfl
@[simp] theorem complete_decOut (op : OpCode) (st : Status) : (complete op st s).decOut = s.decOut := rfl
@[simp] theorem complete_ev (op : OpCode) (st : Status) : (complete op st s).ev = s.ev := rfl
@[simp] theorem complete_cl (op : OpCode) (st : Status) : (complete op st s).cl = s.cl ++ [(op, st)] := rfl
@[simp] theorem complete_rndTaken (op : OpCode) (st : Status) : (complete op st s).rndTaken = s.rndTaken := rfl
@[simp] theorem complete_elapsedDraws (op : OpCode) (st : Status) : (complete op st s).elapsedDraws = s.elapsedDraws := rfl
@[simp] theorem complete_pins (op : OpCode) (st : Status) : (complete op st s).pins = s.pins := rfl
@[simp] theorem complete_script (op : OpCode) (st : Status) : (complete op st s).script = s.script := rfl

@[simp] theorem begin_cfg (i : Instr) (p : Phase) : (begin i p s).cfg = s.cfg := rfl
@[simp] theorem begin_cfgValid (i : Instr) (p : Phase) : (begin i p s).cfgValid = s.cfgValid := rfl
@[simp] theorem begin_rdy (i : Instr) (p : Phase) : (begin i p s).rdy = s.rdy := rfl
@[simp] theorem begin_status (i : Instr) (p : Phase) : (begin i p s).status = s.status := rfl
@[simp] theorem begin_busy (i : Instr) (p : Phase) : (begin i p s).busy = true := rfl
@[simp] theorem begin_cmd (i : Instr) (p : Phase) : (begin i p s).cmd = some i := rfl
@[simp] theorem begin_phase (i : Instr) (p : Phase) : (begin i p s).phase = p := rfl
@[simp] theorem begin_bitIdx (i : Instr) (p : Phase) : (begin i p s).bitIdx = s.bitIdx := rfl
@[simp] theorem begin_byteIdx (i : Instr) (p : Phase) : (begin i p s).byteIdx = s.byteIdx := rfl
@[simp] theorem begin_curValue (i : Instr) (p : Phase) : (begin i p s).curValue = s.curValue := rfl
@[simp] theorem begin_txBuf (i : Instr) (p : Phase) : (begin i p s).txBuf = s.txBuf := rfl
@[simp] theorem begin_txWire (i : Instr) (p : Phase) : (begin i p s).txWire = s.txWire := rfl
@[simp] theorem begin_txTrace (i : Instr) (p : Phase) : (begin i p s).txTrace = s.txTrace := rfl
@[simp] theorem begin_rxBuf (i : Instr) (p : Phase) : (begin i p s).rxBuf = s.rxBuf := rfl
@[simp] theorem begin_rxSeq (i : Instr) (p : Phase) : (begin i p s).rxSeq = s.rxSeq := rfl
@[simp] theorem begin_rxElapsed (i : Instr) (p : Phase) : (begin i p s).rxElapsed = s.rxElapsed := rfl
@[simp] theorem begin_encOut (i : Instr) (p : Phase) : (begin i p s).encOut = s.encOut := rfl
@[simp] theorem begin_parOut (i : Instr) (p : Phase) : (begin i p s).parOut = s.parOut := rfl
@[simp] theorem begin_decOut (i : Instr) (p : Phase) : (begin i p s).decOut = s.decOut := rfl
@[simp] theorem begin_ev (i : Instr) (p : Phase) : (begin i p s).ev = s.ev := rfl
@[simp] theorem begin_cl (i : Instr) (p : Phase) : (begin i p s).cl = s.cl := rfl
@[simp] theorem begin_rndTaken (i : Instr) (p : Phase) : (begin i p s).rndTaken = s.rndTaken := rfl
@[simp] theorem begin_elapsedDraws (i : Instr) (p : Phase) : (begin i p s).elapsedDraws = s.elapsedDraws := rfl
@[simp] theorem begin_pins (i : Instr) (p : Phase) : (begin i p s).pins = s.pins := rfl
@[simp] theorem begin_script (i : Instr) (p : Phase) : (begin i p s).script = s.script := rfl

@[simp] theorem goto_cfg (p : Phase) : (goto p s).cfg = s.cfg := rfl
@[simp] theorem goto_cfgValid (p : Phase) : (goto p s).cfgValid = s.cfgValid := rfl
@[simp] theorem goto_rdy (p : Phase) : (goto p s).rdy = s.rdy := rfl
@[simp] theorem goto_status (p : Phase) : (goto p s).status = s.status := rfl
@[simp] theorem goto_busy (p : Phase) : (goto p s).busy = s.busy := rfl
@[simp] theorem goto_cmd (p : Phase) : (goto p s).cmd = s.cmd := rfl
@[simp] theorem goto_phase (p : Phase) : (goto p s).phase = p := rfl
@[simp] theorem goto_bitIdx (p : Phase) : (goto p s).bitIdx = s.bitIdx := rfl
@[simp] theorem goto_byteIdx (p : Phase) : (goto p s).byteIdx = s.byteIdx := rfl
@[simp] theorem goto_curValue (p : Phase) : (goto p s).curValue = s.curValue := rfl
@[simp] theorem goto_txBuf (p : Phase) : (goto p s).txBuf = s.txBuf := rfl
@[simp] theorem goto_txWire (p : Phase) : (goto p s).txWire = s.txWire := rfl
@[simp] theorem goto_txTrace (p : Phase) : (goto p s).txTrace = s.txTrace := rfl
@[simp] theorem goto_rxBuf (p : Phase) : (goto p s).rxBuf = s.rxBuf := rfl
@[simp] theorem goto_rxSeq (p : Phase) : (goto p s).rxSeq = s.rxSeq := rfl
@[simp] theorem goto_rxElapsed (p : Phase) : (goto p s).rxElapsed = s.rxElapsed := rfl
@[simp] theorem goto_encOut (p : Phase) : (goto p s).encOut = s.encOut := rfl
@[simp] theorem goto_parOut (p : Phase) : (goto p s).parOut = s.parOut := rfl
@[simp] theorem goto_decOut (p : Phase) : (goto p s).decOut = s.decOut := rfl
@[simp] theorem goto_ev (p : Phase) : (goto p s).ev = s.ev := rfl
@[simp] theorem goto_cl (p : Phase) : (goto p s).cl = s.cl := rfl
@[simp] theorem goto_rndTaken (p : Phase) : (goto p s).rndTaken = s.rndTaken := rfl
@[simp] theorem goto_elapsedDraws (p : Phase) : (goto p s).elapsedDraws = s.elapsedDraws := rfl
@[simp] theorem goto_pins (p : Phase) : (goto p s).pins = s.pins := rfl
@[simp] theorem goto_script (p : Phase) : (goto p s).script = s.script := rfl

@[simp] theorem emit_cfg (e : Event) : (emit e s).cfg = s.cfg := rfl
@[simp] theorem emit_cfgValid (e : Event) : (emit e s).cfgValid = s.cfgValid := rfl
@[simp] theorem emit_rdy (e : Event) : (emit e s).rdy = s.rdy := rfl
@[simp] theorem emit_status (e : Event) : (emit e s).status = s.status := rfl
@[simp] theorem emit_busy (e : Event) : (emit e s).busy = s.busy := rfl
@[simp] theorem emit_cmd (e : Event) : (emit e s).cmd = s.cmd := rfl
@[simp] theorem emit_phase (e : Event) : (emit e s).phase = s.phase := rfl
@[simp] theorem emit_bitIdx (e : Event) : (emit e s).bitIdx = s.bitIdx := rfl
@[simp] theorem emit_byteIdx (e : Event) : (emit e s).byteIdx = s.byteIdx := rfl
@[simp] theorem emit_curValue (e : Event) : (emit e s).curValue = s.curValue := rfl
@[simp] theorem emit_txBuf (e : Event) : (emit e s).txBuf = s.txBuf := rfl
@[simp] theorem emit_txWire (e : Event) : (emit e s).txWire = s.txWire := rfl
@[simp] theorem emit_txTrace (e : Event) : (emit e s).txTrace = s.txTrace := rfl
@[simp] theorem emit_rxBuf (e : Event) : (emit e s).rxBuf = s.rxBuf := rfl
@[simp] theorem emit_rxSeq (e : Event) : (emit e s).rxSeq = s.rxSeq := rfl
@[simp] theorem emit_rxElapsed (e : Event) : (emit e s).rxElapsed = s.rxElapsed := rfl
@[simp] theorem emit_encOut (e : Event) : (emit e s).encOut = s.encOut := rfl
@[simp] theorem emit_parOut (e : Event) : (emit e s).parOut = s.parOut := rfl
@[simp] theorem emit_decOut (e : Event) : (emit e s).decOut = s.decOut := rfl
@[simp] theorem emit_ev (e : Event) : (emit e s).ev = s.ev ++ [e] := rfl
@[simp] theorem emit_cl (e : Event) : (emit e s).cl = s.cl := rfl
@[simp] theorem emit_rndTaken (e : Event) : (emit e s).rndTaken = s.rndTaken := rfl
@[simp] theorem emit_elapsedDraws (e : Event) : (emit e s).elapsedDraws = s.elapsedDraws := rfl
@[simp] theorem emit_pins (e : Event) : (emit e s).pins = s.pins := rfl
@[simp] theorem emit_script (e : Event) : (emit e s).script = s.script := rfl

@[simp] theorem takeAnswer_cfg (a : RndAnswer) : (takeAnswer a s).cfg = s.cfg := rfl
@[simp] theorem takeAnswer_cfgValid (a : RndAnswer) : (takeAnswer a s).cfgValid = s.cfgValid := rfl
@[simp] theorem takeAnswer_rdy (a : RndAnswer) : (takeAnswer a s).rdy = s.rdy := rfl
@[simp] theorem takeAnswer_status (a : RndAnswer) : (takeAnswer a s).status = s.status := rfl
@[simp] theorem takeAnswer_busy (a : RndAnswer) : (takeAnswer a s).busy = s.busy := rfl
@[simp] theorem takeAnswer_cmd (a : RndAnswer) : (takeAnswer a s).cmd = s.cmd := rfl
@[simp] theorem takeAnswer_phase (a : RndAnswer) : (takeAnswer a s).phase = s.phase := rfl
@[simp] theorem takeAnswer_bitIdx (a : RndAnswer) : (takeAnswer a s).bitIdx = s.bitIdx := rfl
@[simp] theorem takeAnswer_byteIdx (a : RndAnswer) : (takeAnswer a s).byteIdx = s.byteIdx := rfl
@[simp] theorem takeAnswer_curValue (a : RndAnswer) : (takeAnswer a s).curValue = s.curValue := rfl
@[simp] theorem takeAnswer_txBuf (a : RndAnswer) : (takeAnswer a s).txBuf = s.txBuf := rfl
@[simp] theorem takeAnswer_txWire (a : RndAnswer) : (takeAnswer a s).txWire = s.txWire := rfl
@[simp] theorem takeAnswer_txTrace (a : RndAnswer) : (takeAnswer a s).txTrace = s.txTrace := rfl
@[simp] theorem takeAnswer_rxBuf (a : RndAnswer) : (takeAnswer a s).rxBuf = s.rxBuf := rfl
@[simp] theorem takeAnswer_rxSeq (a : RndAnswer) : (takeAnswer a s).rxSeq = s.rxSeq := rfl
@[simp] theorem takeAnswer_rxElapsed (a : RndAnswer) : (takeAnswer a s).rxElapsed = s.rxElapsed := rfl
@[simp] theorem takeAnswer_encOut (a : RndAnswer) : (takeAnswer a s).encOut = s.encOut := rfl
@[simp] theorem takeAnswer_parOut (a : RndAnswer) : (takeAnswer a s).parOut = s.parOut := rfl
@[simp] theorem takeAnswer_decOut (a : RndAnswer) : (takeAnswer a s).decOut = s.decOut := rfl
@[simp] theorem takeAnswer_ev (a : RndAnswer) : (takeAnswer a s).ev = s.ev := rfl
@[simp] theorem takeAnswer_cl (a : RndAnswer) : (takeAnswer a s).cl = s.cl := rfl
@[simp] theorem takeAnswer_rndTaken (a : RndAnswer) : (takeAnswer a s).rndTaken = s.rndTaken ++ [a] := rfl
@[simp] theorem takeAnswer_elapsedDraws (a : RndAnswer) : (takeAnswer a s).elapsedDraws = s.elapsedDraws := rfl
@[simp] theorem takeAnswer_pins (a : RndAnswer) : (takeAnswer a s).pins = s.pins := rfl
@[simp] theorem takeAnswer_script (a : RndAnswer) : (takeAnswer a s).script = s.script := rfl

@[simp] theorem drawElapsed_cfg : (drawElapsed s).cfg = s.cfg := rfl
@[simp] theorem drawElapsed_cfgValid : (drawElapsed s).cfgValid = s.cfgValid := rfl
@[simp] theorem drawElapsed_rdy : (drawElapsed s).rdy = s.rdy := rfl
@[simp] theorem drawElapsed_status : (drawElapsed s).status = s.status := rfl
@[simp] theorem drawElapsed_busy : (drawElapsed s).busy = s.busy := rfl
@[simp] theorem drawElapsed_cmd : (drawElapsed s).cmd = s.cmd := rfl
@[simp] theorem drawElapsed_phase : (drawElapsed s).phase = s.phase := rfl
@[simp] theorem drawElapsed_bitIdx : (drawElapsed s).bitIdx = s.bitIdx := rfl
@[simp] theorem drawElapsed_byteIdx : (drawElapsed s).byteIdx = s.byteIdx := rfl
@[simp] theorem drawElapsed_curValue : (drawElapsed s).curValue = s.curValue := rfl
@[simp] theorem drawElapsed_txBuf : (drawElapsed s).txBuf = s.txBuf := rfl
@[simp] theorem drawElapsed_txWire : (drawElapsed s).txWire = s.txWire := rfl
@[simp] theorem drawElapsed_txTrace : (drawElapsed s).txTrace = s.txTrace := rfl
@[simp] theorem drawElapsed_rxBuf : (drawElapsed s).rxBuf = s.rxBuf := rfl
@[simp] theorem drawElapsed_rxSeq : (drawElapsed s).rxSeq = s.rxSeq := rfl
@[simp] theorem drawElapsed_rxElapsed : (drawElapsed s).rxElapsed = some (elapsedNow s) := rfl
@[simp] theorem drawElapsed_encOut : (drawElapsed s).encOut = s.encOut := rfl
@[simp] theorem drawElapsed_parOut : (drawElapsed s).parOut = s.parOut := rfl
@[simp] theorem drawElapsed_decOut : (drawElapsed s).decOut = s.decOut := rfl
@[simp] theorem drawElapsed_ev : (drawElapsed s).ev = s.ev := rfl
@[simp] theorem drawElapsed_cl : (drawElapsed s).cl = s.cl := rfl
@[simp] theorem drawElapsed_rndTaken : (drawElapsed s).rndTaken = s.rndTaken := rfl
@[simp] theorem drawElapsed_elapsedDraws : (drawElapsed s).elapsedDraws = s.elapsedDraws + 1 := rfl
@[simp] theorem drawElapsed_pins : (drawElapsed s).pins = s.pins := rfl
@[simp] theorem drawElapsed_script : (drawElapsed s).script = s.script := rfl

@[simp] theorem tick_cfg : (tick s).cfg = s.cfg := rfl
@[simp] theorem tick_cfgValid : (tick s).cfgValid = s.cfgValid := rfl
@[simp] theorem tick_rdy : (tick s).rdy = s.rdy := rfl
@[simp] theorem tick_status : (tick s).status = s.status := rfl
@[simp] theorem tick_busy : (tick s).busy = s.busy := rfl
@[simp] theorem tick_cmd : (tick s).cmd = s.cmd := rfl
@[simp] theorem tick_phase : (tick s).phase = s.phase := rfl
@[simp] theorem tick_bitIdx : (tick s).bitIdx = s.bitIdx := rfl
@[simp] theorem tick_byteIdx : (tick s).byteIdx = s.byteIdx := rfl
@[simp] theorem tick_curValue : (tick s).curValue = s.curValue := rfl
@[simp] theorem tick_txBuf : (tick s).txBuf = s.txBuf := rfl
@[simp] theorem tick_txWire : (tick s).txWire = s.txWire := rfl
@[simp] theorem tick_txTrace : (tick s).txTrace = s.txTrace := rfl
@[simp] theorem tick_rxBuf : (tick s).rxBuf = s.rxBuf := rfl
@[simp] theorem tick_rxSeq : (tick s).rxSeq = s.rxSeq := rfl
@[simp] theorem tick_rxElapsed : (tick s).rxElapsed = s.rxElapsed := rfl
@[simp] theorem tick_encOut : (tick s).encOut = s.encOut := rfl
@[simp] theorem tick_parOut : (tick s).parOut = s.parOut := rfl
@[simp] theorem tick_decOut : (tick s).decOut = s.decOut := rfl
@[simp] theorem tick_ev : (tick s).ev = s.ev := rfl
@[simp] theorem tick_cl : (tick s).cl = s.cl := rfl
@[simp] theorem tick_rndTaken : (tick s).rndTaken = s.rndTaken := rfl
@[simp] theorem tick_elapsedDraws : (tick s).elapsedDraws = s.elapsedDraws := rfl
@[simp] theorem tick_pins : (tick s).pins = s.script.headD Pins.quiet := rfl
@[simp] theorem tick_script : (tick s).script = s.script.tail := rfl

@[simp] theorem resetBlock_cfg : (resetBlock s).cfg = Cfg.default := rfl
@[simp] theorem resetBlock_cfgValid : (resetBlock s).cfgValid = true := rfl
@[simp] theorem resetBlock_rdy : (resetBlock s).rdy = true := rfl
@[simp] theorem resetBlock_status : (resetBlock s).status = .ok := rfl
@[simp] theorem resetBlock_busy : (resetBlock s).busy = false := rfl
@[simp] theorem resetBlock_cmd : (resetBlock s).cmd = none := rfl
@[simp] theorem resetBlock_phase : (resetBlock s).phase = .idle := rfl
@[simp] theorem resetBlock_bitIdx : (resetBlock s).bitIdx = 0 := rfl
@[simp] theorem resetBlock_byteIdx : (resetBlock s).byteIdx = 0 := rfl
@[simp] theorem resetBlock_curValue : (resetBlock s).curValue = none := rfl
@[simp] theorem resetBlock_txBuf : (resetBlock s).txBuf = none := rfl
@[simp] theorem resetBlock_txWire : (resetBlock s).txWire = none := rfl
@[simp] theorem resetBlock_txTrace : (resetBlock s).txTrace = none := rfl
@[simp] theorem resetBlock_rxBuf : (resetBlock s).rxBuf = none := rfl
@[simp] theorem resetBlock_rxSeq : (resetBlock s).rxSeq = none := rfl
@[simp] theorem resetBlock_rxElapsed : (resetBlock s).rxElapsed = none := rfl
@[simp] theorem resetBlock_encOut : (resetBlock s).encOut = none := rfl
@[simp] theorem resetBlock_parOut : (resetBlock s).parOut = none := rfl
@[simp] theorem resetBlock_decOut : (resetBlock s).decOut = none := rfl
@[simp] theorem resetBlock_ev : (resetBlock s).ev = s.ev := rfl
@[simp] theorem resetBlock_cl : (resetBlock s).cl = s.cl := rfl
@[simp] theorem resetBlock_rndTaken : (resetBlock s).rndTaken = s.rndTaken := rfl
@[simp] theorem resetBlock_elapsedDraws : (resetBlock s).elapsedDraws = s.elapsedDraws := rfl
@[simp] theorem resetBlock_pins : (resetBlock s).pins = s.pins := rfl
@[simp] theorem resetBlock_script : (resetBlock s).script = s.script := rfl

@[simp] theorem delay_eq (t : Seconds) : delay t s = s := rfl

end

end Sys2Proof.Machine
end

