-- ==== Sys2Proof/Laws/Ops.lean ====
section
/-! SUPPORT. What each shared operation can do, once: if it answers a next state, then one of the listed cases holds.
Later proofs cite these and do not unfold the operations. -/

namespace Sys2Proof.Machine

section
variable {s t : State} {α : Type}

@[simp] theorem mapNext_next (f : State → State) (s : State) : Result.mapNext f (.next s) = .next (f s) := rfl
@[simp] theorem mapNext_fault (f : State → State) (r : Fault) : Result.mapNext f (.fault r) = .fault r := rfl
@[simp] theorem mapNext_refused (f : State → State) (r : Refusal) :
    Result.mapNext f (.refused r) = .refused r := rfl

theorem mapNext_eq_next {f : State → State} {r : Result} :
    Result.mapNext f r = .next t ↔ ∃ s', r = .next s' ∧ t = f s' := by
  cases r <;> simp [eq_comm]

theorem need_eq_next {r : Reg} {v : Option α} {k : α → Result} :
    need r v k = .next t ↔ ∃ a, v = some a ∧ k a = .next t := by
  cases v <;> simp [need]

@[simp] theorem need_some (r : Reg) (a : α) (k : α → Result) : need r (some a) k = k a := rfl
@[simp] theorem need_none (r : Reg) (k : α → Result) : need r none k = .fault (.absentRead r) := rfl

theorem guarded_of_valid (i : Instr) (k : Result) (h : s.cfgValid = true) : guarded i s k = k := by
  simp [guarded, h]

theorem guarded_of_invalid (i : Instr) (k : Result) (h : s.cfgValid = false) :
    guarded i s k = .next (complete (encode i) .notConfigured s) := by
  simp [guarded, raise, h]

theorem guarded_eq_next {i : Instr} {k : Result} :
    guarded i s k = .next t ↔
      (s.cfgValid = true ∧ k = .next t) ∨
        (s.cfgValid = false ∧ t = complete (encode i) .notConfigured s) := by
  cases h : s.cfgValid <;> simp [guarded, raise, h, eq_comm]

/-- A payload draw holds, or consumes an answer below 2^W (00 R16, 70 R262). -/
theorem drawValue_eq_next {W : Nat} {k : Nat → State → Result} :
    drawValue W s k = .next t ↔
      (s.pins.rndAns = none ∧ t = s) ∨
        ∃ v, s.pins.rndAns = some (.value v) ∧ v < 2 ^ W ∧ k v (takeAnswer (.value v) s) = .next t := by
  unfold drawValue
  split <;> rename_i h <;> simp only [h]
  · simp [eq_comm]
  · split <;> simp_all
  · simp

/-- A trial draw holds, or consumes an answer in [0, 1) (00 R16, 70 R262). -/
theorem drawProb_eq_next {k : Rat → State → Result} :
    drawProb s k = .next t ↔
      (s.pins.rndAns = none ∧ t = s) ∨
        ∃ u, s.pins.rndAns = some (.prob u) ∧ (0 ≤ u ∧ u < 1) ∧ k u (takeAnswer (.prob u) s) = .next t := by
  unfold drawProb
  split <;> rename_i h <;> simp only [h]
  · simp [eq_comm]
  · split <;> simp_all
  · simp

/-- An injection trial: no draw with INJ = 0; with INJ = 1 a hold, or a draw and a flip iff u < PROB (41 R132). -/
theorem injectTrial_eq_next {k : Bit → State → Result} :
    injectTrial s k = .next t ↔
      (s.cfg.inj = false ∧ k false s = .next t) ∨
      (s.cfg.inj = true ∧ s.pins.rndAns = none ∧ t = s) ∨
        ∃ u, s.cfg.inj = true ∧ s.pins.rndAns = some (.prob u) ∧ (0 ≤ u ∧ u < 1) ∧
          k (decide (u < s.cfg.prob)) (takeAnswer (.prob u) s) = .next t := by
  unfold injectTrial
  cases h : s.cfg.inj <;> simp [drawProb_eq_next]

theorem bitPeriod_eq_next {k : Seconds → Result} :
    bitPeriod s k = .next t ↔ s.cfg.baud ≠ 0 ∧ k (1 / (s.cfg.baud : Rat)) = .next t := by
  unfold bitPeriod; split <;> simp_all

theorem bitAtIdx_eq_next {buf : BitSeq} {k : Bit → Result} :
    bitAtIdx buf s k = .next t ↔ ∃ b, buf[s.bitIdx]? = some b ∧ k b = .next t := by
  unfold bitAtIdx; split <;> simp_all

/-- What a transmit bit step writes when its trial answers `f` with the draws taken in `s₁` (41 R131). -/
def txWritten (s s₁ : State) (wire : BitSeq) (trace : List Seconds) (b f : Bit) : State :=
  { s₁ with ev := s₁.ev ++ [.bit s.bitIdx (b ^^ f)], txWire := some (wire ++ [b ^^ f])
            txTrace := some (trace ++ [1 / (s.cfg.baud : Rat)]), bitIdx := s.bitIdx + 1 }

/-- A transmit bit step holds in its draw, or sends one bit (41 R131). -/
theorem txBitStep_eq_next {last : State → State} :
    txBitStep last s = .next t ↔
      ∃ buf wire trace b, s.txBuf = some buf ∧ s.txWire = some wire ∧ s.txTrace = some trace ∧
        buf[s.bitIdx]? = some b ∧ s.cfg.baud ≠ 0 ∧
        ((s.cfg.inj = true ∧ s.pins.rndAns = none ∧ t = s) ∨
          ∃ f s₁, ((s.cfg.inj = false ∧ f = false ∧ s₁ = s) ∨
              ∃ u, s.cfg.inj = true ∧ s.pins.rndAns = some (.prob u) ∧ (0 ≤ u ∧ u < 1) ∧
                f = decide (u < s.cfg.prob) ∧ s₁ = takeAnswer (.prob u) s) ∧
            t = if s.bitIdx + 1 = buf.length then last (txWritten s s₁ wire trace b f)
                else txWritten s s₁ wire trace b f) := by
  unfold txBitStep
  simp only [need_eq_next, bitAtIdx_eq_next, bitPeriod_eq_next, injectTrial_eq_next]
  constructor
  · rintro ⟨buf, hb, wire, hw, trace, ht, b, hbit, hbaud, h⟩
    refine ⟨buf, wire, trace, b, hb, hw, ht, hbit, hbaud, ?_⟩
    rcases h with ⟨hi, h⟩ | h | ⟨u, hi, ha, hu, h⟩
    · exact .inr ⟨false, s, .inl ⟨hi, rfl, rfl⟩, (Host.Outcome.next.inj h).symm⟩
    · exact .inl h
    · exact .inr ⟨_, _, .inr ⟨u, hi, ha, hu, rfl, rfl⟩, (Host.Outcome.next.inj h).symm⟩
  · rintro ⟨buf, wire, trace, b, hb, hw, ht, hbit, hbaud, h⟩
    refine ⟨buf, hb, wire, hw, trace, ht, b, hbit, hbaud, ?_⟩
    rcases h with h | ⟨f, s₁, ⟨hi, rfl, rfl⟩ | ⟨u, hi, ha, hu, rfl, rfl⟩, rfl⟩
    · exact .inr (.inl h)
    · exact .inl ⟨hi, rfl⟩
    · exact .inr (.inr ⟨u, hi, ha, hu, rfl⟩)

/-- What a receive bit step writes (41 R141). -/
def rxWritten (s : State) (seq : BitSeq) (b : Bit) : State :=
  { s with rxSeq := some (seq ++ [b]), bitIdx := s.bitIdx + 1 }

/-- A receive bit step copies one bit; the last one also draws the elapsed time (41 R141, R142). -/
theorem rxBitStep_eq_next {last : State → State} :
    rxBitStep last s = .next t ↔
      ∃ buf seq b, s.rxBuf = some buf ∧ s.rxSeq = some seq ∧ buf[s.bitIdx]? = some b ∧ s.cfg.baud ≠ 0 ∧
        t = if s.bitIdx + 1 = buf.length then last (drawElapsed (rxWritten s seq b)) else rxWritten s seq b := by
  unfold rxBitStep
  simp only [need_eq_next, bitAtIdx_eq_next, bitPeriod_eq_next, delay_eq]
  constructor
  · rintro ⟨buf, hb, seq, hs, b, hbit, hbaud, h⟩
    exact ⟨buf, seq, b, hb, hs, hbit, hbaud, (Host.Outcome.next.inj h).symm⟩
  · rintro ⟨buf, seq, b, hb, hs, hbit, hbaud, rfl⟩
    exact ⟨buf, hb, seq, hs, b, hbit, hbaud, rfl⟩

/-- A step of the machine is a step of the block with the ports moved on. -/
theorem step_eq_next : step s = .next t ↔ ∃ s', blockStep s = .next s' ∧ t = tick s' := mapNext_eq_next

/-- What one step of the block can be (70 R250, R261; 10 R26; 30 R82). -/
theorem blockStep_cases :
    (s.pins.rst = true ∧ blockStep s = .next (resetBlock s)) ∨
    (s.pins.rst = false ∧ s.busy = true ∧ blockStep s = phaseStep s) ∨
    (s.pins.rst = false ∧ s.busy = false ∧ s.pins.cmdValid = true ∧
      ((∃ i, decode s.pins.cmdOp = .ok i ∧ blockStep s = exec i s) ∨
        ∃ e, decode s.pins.cmdOp = .error e ∧
          blockStep s = .next (complete s.pins.cmdOp .illegalCommand s))) ∨
    (s.pins.rst = false ∧ s.busy = false ∧ s.pins.cmdValid = false ∧ blockStep s = .next s) := by
  unfold blockStep
  cases hr : s.pins.rst <;> cases hb : s.busy <;> cases hv : s.pins.cmdValid <;> simp
  unfold acceptOffer
  cases hd : decode s.pins.cmdOp <;> simp [raise]

/-- The acceptance step of every command: what it answers is one of these (43 R200; 40 R103 to R105; 41 R130, R140;
42 R160, R163; 60 R225). -/
theorem exec_eq_next {i : Instr} (h : exec i s = .next t) :
    (i = .configure ∧ ∃ c, latchOf s.pins.cfgIn = some c ∧
        t = complete 0x1 .ok { s with cfg := c, cfgValid := true }) ∨
    (i = .configure ∧ latchOf s.pins.cfgIn = none ∧
        t = complete 0x1 .invalidConfiguration { s with cfgValid := false }) ∨
    (i ≠ .configure ∧ i ≠ .waitReady ∧ s.cfgValid = false ∧ t = complete (encode i) .notConfigured s) ∨
    (i = .encode ∧ s.cfgValid = true ∧
        t = complete 0x2 .ok { s with encOut := some (encodeFrame s.pins.din s.cfg.w s.cfg.pm) }) ∨
    (i = .decode ∧ s.cfgValid = true ∧ decodeFrame s.pins.frameIn s.cfg.w s.cfg.pm = .shape ∧
        t = complete 0x3 .invalidFrameShape s) ∨
    (i = .decode ∧ s.cfgValid = true ∧ ∃ d, decodeFrame s.pins.frameIn s.cfg.w s.cfg.pm = .ok d ∧
        t = complete 0x3 .ok { s with decOut := some d }) ∨
    (i = .calcParity ∧ s.cfgValid = true ∧
        t = complete 0x4 .ok { s with parOut := some (parityBit (trunc s.cfg.w s.pins.din) s.cfg.w s.cfg.pm) }) ∨
    (i = .transmit ∧ s.cfgValid = true ∧
        ∃ s', s' = { s with txBuf := some s.pins.frameIn, txWire := some [], txTrace := some [], bitIdx := 0 } ∧
          ((s.pins.frameIn.length = 0 ∧ t = complete 0x5 .ok s') ∨
            (s.pins.frameIn.length ≠ 0 ∧ t = begin .transmit .tx s'))) ∨
    (i = .receive ∧ s.cfgValid = true ∧
        ∃ s', s' = { s with rxBuf := some s.pins.frameIn, rxSeq := some [], bitIdx := 0 } ∧
          ((s.pins.frameIn.length = 0 ∧ t = complete 0x6 .ok (drawElapsed s')) ∨
            (s.pins.frameIn.length ≠ 0 ∧ t = begin .receive .rx s'))) ∨
    (i = .waitReady ∧ s.rdy = true ∧ t = complete 0x7 .ok s) ∨
    (i = .waitReady ∧ s.rdy = false ∧ t = begin .waitReady .poll s) ∨
    (i = .run ∧ s.cfgValid = true ∧ s.cfg.nb = 0 ∧ t = complete 0x8 .ok { s with byteIdx := 0 }) ∨
    (i = .run ∧ s.cfgValid = true ∧ s.cfg.nb ≠ 0 ∧ t = begin .run .rDraw { s with byteIdx := 0 }) := by
  cases i <;>
    simp only [exec, execConfigure, execEncode, execDecode, execCalcParity, execTransmit, execReceive, execWaitReady,
      execRun, guarded_eq_next, raise, delay_eq] at h
  case configure => split at h <;> simp_all [encode]
  case encode => rcases h with ⟨hv, h⟩ | h <;> simp_all [encode]
  case decode =>
    rcases h with ⟨hv, h⟩ | h
    · split at h <;> simp_all [encode]
    · simp_all [encode]
  case calcParity => rcases h with ⟨hv, h⟩ | h <;> simp_all [encode]
  case transmit =>
    rcases h with ⟨hv, h⟩ | h
    · split at h <;> simp_all [encode]
    · simp_all [encode]
  case receive =>
    rcases h with ⟨hv, h⟩ | h
    · split at h <;> simp_all [encode]
    · simp_all [encode]
  case waitReady => split at h <;> simp_all [encode]
  case run =>
    rcases h with ⟨hv, h⟩ | h
    · split at h <;> simp_all [encode]
    · simp_all [encode]

/-- The step of a command in progress, phase by phase (10 R28): what it answers is one of these. -/
theorem phaseStep_eq_next (h : phaseStep s = .next t) :
    (s.phase = .poll ∧ s.rdy = true ∧ t = complete 0x7 .ok s) ∨
    (s.phase = .poll ∧ s.rdy = false ∧ t = s) ∨
    (s.phase = .tx ∧ txBitStep (complete 0x5 .ok) s = .next t) ∨
    (s.phase = .rx ∧ rxBitStep (complete 0x6 .ok) s = .next t) ∨
    (s.phase = .rDraw ∧ s.pins.rndAns = none ∧ t = s) ∨
    (s.phase = .rDraw ∧ ∃ v, s.pins.rndAns = some (.value v) ∧ v < 2 ^ s.cfg.w ∧
        t = goto .rEncode { takeAnswer (.value v) s with curValue := some v }) ∨
    (s.phase = .rEncode ∧ ∃ v, s.curValue = some v ∧
        t = goto .rPoll { s with encOut := some (encodeFrame v s.cfg.w s.cfg.pm)
                                 txBuf := some (encodeFrame v s.cfg.w s.cfg.pm) }) ∨
    (s.phase = .rPoll ∧ s.rdy = true ∧
        t = goto .rTx { s with txWire := some [], txTrace := some [], bitIdx := 0 }) ∨
    (s.phase = .rPoll ∧ s.rdy = false ∧ t = s) ∨
    (s.phase = .rTx ∧ txBitStep (goto .rRxBegin) s = .next t) ∨
    (s.phase = .rRxBegin ∧ ∃ wire, s.txWire = some wire ∧
        t = goto .rRx { s with rdy := false, rxBuf := some wire, rxSeq := some [], bitIdx := 0 }) ∨
    (s.phase = .rRx ∧ rxBitStep (goto .rDecode) s = .next t) ∨
    (s.phase = .rDecode ∧ ∃ seq, s.rxSeq = some seq ∧ decodeFrame seq s.cfg.w s.cfg.pm = .shape ∧
        t = complete 0x8 .invalidFrameShape { s with rdy := true }) ∨
    (s.phase = .rDecode ∧ ∃ seq d, s.rxSeq = some seq ∧ decodeFrame seq s.cfg.w s.cfg.pm = .ok d ∧
        t = goto .rReport { s with decOut := some d, rdy := true }) ∨
    (s.phase = .rReport ∧ ∃ d v e s', s.decOut = some d ∧ s.curValue = some v ∧ s.rxElapsed = some e ∧
        s' = { emit (.summary s.byteIdx v d.value d.fe d.pe e) s with byteIdx := s.byteIdx + 1 } ∧
        ((s.byteIdx + 1 < s.cfg.nb ∧ t = goto .rDraw s') ∨
          (¬ s.byteIdx + 1 < s.cfg.nb ∧ t = complete 0x8 .ok s'))) := by
  unfold phaseStep at h
  split at h <;> rename_i hp <;> simp only [hp]
  case h_1 => simp at h
  case h_2 => unfold stepPoll at h; split at h <;> simp_all [encode]
  case h_3 => simpa [stepTx, encode] using h
  case h_4 => simpa [stepRx, encode] using h
  case h_5 =>
    simp only [stepRDraw, drawValue_eq_next] at h
    rcases h with h | ⟨v, ha, hv, h⟩
    · simp_all
    · obtain rfl := Host.Outcome.next.inj h
      simp [ha, hv]
  case h_6 =>
    obtain ⟨v, hv, h⟩ := need_eq_next.mp h
    obtain rfl := Host.Outcome.next.inj h
    simp [goto, hv]
  case h_7 => unfold stepRPoll at h; split at h <;> simp_all
  case h_8 => simpa [stepRTx] using h
  case h_9 =>
    obtain ⟨v, hv, h⟩ := need_eq_next.mp h
    obtain rfl := Host.Outcome.next.inj h
    simp [goto, hv]
  case h_10 => simpa [stepRRx] using h
  case h_11 =>
    obtain ⟨v, hv, h⟩ := need_eq_next.mp h
    split at h <;> simp_all [raise, encode]
  case h_12 =>
    obtain ⟨d, hd, h⟩ := need_eq_next.mp h
    obtain ⟨v, hv, h⟩ := need_eq_next.mp h
    obtain ⟨e, he, h⟩ := need_eq_next.mp h
    simp only at h
    split at h <;> simp_all [encode]

end

end Sys2Proof.Machine
end

