-- ==== Sys2Proof/Laws/PerInstr.lean ====
section
/-! SUPPORT. What holds of every command as syntax, one lemma per constructor (30 R80 to R83). -/

namespace Sys2Proof.Laws

/-- A command is well formed, its op code is one of 0x1 to 0x8, and the code decodes to it (30 R81, R83). -/
def OpcodeInMap.Statement (i : Instr) : Prop :=
  i.wellFormed = true ∧ 1 ≤ (encode i).toNat ∧ (encode i).toNat ≤ 8 ∧ decode (encode i) = .ok i

theorem OpcodeInMap.configure : OpcodeInMap.Statement .configure := ⟨rfl, by decide, by decide, rfl⟩
theorem OpcodeInMap.encode : OpcodeInMap.Statement .encode := ⟨rfl, by decide, by decide, rfl⟩
theorem OpcodeInMap.decode : OpcodeInMap.Statement .decode := ⟨rfl, by decide, by decide, rfl⟩
theorem OpcodeInMap.calcParity : OpcodeInMap.Statement .calcParity := ⟨rfl, by decide, by decide, rfl⟩
theorem OpcodeInMap.transmit : OpcodeInMap.Statement .transmit := ⟨rfl, by decide, by decide, rfl⟩
theorem OpcodeInMap.receive : OpcodeInMap.Statement .receive := ⟨rfl, by decide, by decide, rfl⟩
theorem OpcodeInMap.waitReady : OpcodeInMap.Statement .waitReady := ⟨rfl, by decide, by decide, rfl⟩
theorem OpcodeInMap.run : OpcodeInMap.Statement .run := ⟨rfl, by decide, by decide, rfl⟩

end Sys2Proof.Laws
end

