-- ==== Sys2Proof/Machine/Assembler.lean ====
section
/-! DEFINITION. The text of command programs (30 R88, R89): one command per line, values in decimal or with a 0b
prefix, frames as bracketed bit lists in wire order, a semicolon starts a comment. What the spec leaves open of the
text (blanks) is log 16. -/

namespace Sys2Proof.Machine

/-- What one line of text stands for. -/
inductive Parsed where
  /-- nothing but blanks and comment -/
  | blank
  /-- a command line -/
  | command (l : Line)
  /-- the pseudo-instruction SEND -/
  | send (value : Nat)
  /-- not of the syntax -/
  | bad
  deriving DecidableEq, Repr

/-- A blank or a tab. -/
def isBlank (c : Char) : Bool := c == ' ' || c == '\t'

/-- The text without blanks at its two ends. -/
def trim (t : List Char) : List Char := ((t.dropWhile isBlank).reverse.dropWhile isBlank).reverse

/-- The pieces of a text between separators. -/
def pieces (sep : Char) : List Char → List (List Char)
  | [] => [[]]
  | c :: cs =>
    if c == sep then [] :: pieces sep cs
    else
      match pieces sep cs with
      | [] => [[c]]
      | p :: ps => (c :: p) :: ps

/-- A digit below the base. -/
def digit (base : Nat) (c : Char) : Option Nat :=
  if 48 ≤ c.toNat ∧ c.toNat < 48 + base then some (c.toNat - 48) else none

/-- The number of a digit string read on from `acc`. -/
def digitsFrom (base : Nat) : Nat → List Char → Option Nat
  | acc, [] => some acc
  | acc, c :: cs =>
    match digit base c with
    | some d => digitsFrom base (base * acc + d) cs
    | none => none

/-- A natural in the given base: at least one digit. -/
def natural (base : Nat) (t : List Char) : Option Nat := if t.isEmpty then none else digitsFrom base 0 t

/-- A value: decimal, or binary with a 0b prefix (30 R88). -/
def valueText (t : List Char) : Option Nat :=
  match t with
  | '0' :: 'b' :: ds => natural 2 ds
  | _ => natural 10 t

/-- One bit of a frame literal. -/
def bitText (t : List Char) : Option Bit :=
  match trim t with
  | ['0'] => some false
  | ['1'] => some true
  | _ => none

/-- A frame literal `[b0,b1,...]`; `[]` is the empty sequence (30 R88). -/
def frameText (t : List Char) : Option BitSeq :=
  match t with
  | '[' :: rest =>
    match rest.reverse with
    | ']' :: inner =>
      if (trim inner.reverse).isEmpty then some [] else (pieces ',' inner.reverse).mapM bitText
    | _ => none
  | _ => none

/-- The text after `key=`, if the piece begins with it. -/
def keyed (key piece : List Char) : Option (List Char) :=
  let p := trim piece
  if (key ++ ['=']).isPrefixOf p then some (p.drop (key.length + 1)) else none

/-- PM by name (30 R88). -/
def modeText (t : List Char) : Option ParityMode :=
  if t = ['N', 'o', 'n', 'e'] then some .none
  else if t = ['E', 'v', 'e', 'n'] then some .even
  else if t = ['O', 'd', 'd'] then some .odd
  else none

/-- A fraction `n/d` of naturals; a zero denominator names no rational. -/
def fractionText (t : List Char) : Option Rat :=
  match pieces '/' t with
  | [n, d] =>
    match natural 10 n, natural 10 d with
    | some n, some d => if d = 0 then none else some ((n : Rat) / (d : Rat))
    | _, _ => none
  | _ => none

/-- CONFIGURE's operand: the six fields in the order of 30 R88. -/
def configureText (t : List Char) : Option Cfg :=
  match pieces ',' t with
  | [w, pm, baud, inj, prob, nb] => do
    let w ← (keyed ['W'] w).bind (natural 10)
    let pm ← (keyed ['P', 'M'] pm).bind modeText
    let baud ← (keyed ['B', 'A', 'U', 'D'] baud).bind (natural 10)
    let inj ← (keyed ['I', 'N', 'J'] inj).bind bitText
    let prob ← (keyed ['P', 'R', 'O', 'B'] prob).bind fractionText
    let nb ← (keyed ['N', 'B'] nb).bind (natural 10)
    some { w := w, pm := pm, baud := baud, inj := inj, prob := prob, nb := nb }
  | _ => none

/-- An operand that must parse. -/
def withOperand {α : Type} (o : Option α) (k : α → Parsed) : Parsed :=
  match o with
  | some a => k a
  | none => .bad

/-- A command without operand. -/
def noOperand (t : List Char) (l : Line) : Parsed := if t.isEmpty then .command l else .bad

/-- The command named by `name` with its operand text (30 R88, R89). -/
def commandText (name operand : List Char) : Parsed :=
  if name = ['C', 'O', 'N', 'F', 'I', 'G', 'U', 'R', 'E'] then
    withOperand (configureText operand) fun c => .command (.configure c)
  else if name = ['E', 'N', 'C', 'O', 'D', 'E'] then
    withOperand (valueText operand) fun v => .command (.encode v)
  else if name = ['C', 'A', 'L', 'C', '_', 'P', 'A', 'R', 'I', 'T', 'Y'] then
    withOperand (valueText operand) fun v => .command (.calcParity v)
  else if name = ['D', 'E', 'C', 'O', 'D', 'E'] then
    withOperand (frameText operand) fun f => .command (.decode f)
  else if name = ['T', 'R', 'A', 'N', 'S', 'M', 'I', 'T'] then
    withOperand (frameText operand) fun f => .command (.transmit f)
  else if name = ['R', 'E', 'C', 'E', 'I', 'V', 'E'] then
    withOperand (frameText operand) fun f => .command (.receive f)
  else if name = ['W', 'A', 'I', 'T', '_', 'R', 'E', 'A', 'D', 'Y'] then noOperand operand .waitReady
  else if name = ['R', 'U', 'N'] then noOperand operand .run
  else if name = ['S', 'E', 'N', 'D'] then withOperand (valueText operand) .send
  else .bad

/-- One line of a program: the comment is dropped, the first word is the command's name and the rest its operand. -/
def parseLine (text : List Char) : Parsed :=
  let t := trim (text.takeWhile (· != ';'))
  if t.isEmpty then .blank
  else commandText (t.takeWhile fun c => !isBlank c) (trim (t.dropWhile fun c => !isBlank c))

end Sys2Proof.Machine
end

