-- ==== Sys2Proof/Tests/Slice0.lean ====
section
/-! SUPPORT. The model's own tests: ill-formed operands that the checks refuse, every command's word, one or two small
steps per command with values of spec/95_test_vectors.md, and, for every statement with hypotheses, a concrete state
and operands that meet them all (the theorems `witness_…`, named after the statements). -/

namespace Sys2Proof.Tests

open Sys2Proof Sys2Proof.Machine

/-! ### Helpers -/

/-- One field of a next state. -/
def field {α : Type} (f : State → α) (r : Result) : Option α :=
  match r with
  | .next s => some (f s)
  | .fault _ => none
  | .refused _ => none

/-- Quiet ports with a command offered. -/
def offering (op : OpCode) : Pins := Pins.quiet.offer op

/-- The reset state with a configuration, port samples, and samples to come. -/
def idleWith (c : Cfg) (p : Pins) (l : List Pins) : State := { State.reset with cfg := c, pins := p, script := l }

/-- Reset with the default configuration and a value on `din`. -/
def withDin (v : Nat) : State := idleWith Cfg.default { Pins.quiet with din := v } []

/-- Reset with the default configuration and a sequence on `frame_in`. -/
def withFrame (f : BitSeq) : State := idleWith Cfg.default { Pins.quiet with frameIn := f } []

/-- Reset with a record on `cfg_in`. -/
def withCfgIn (c : CfgIn) : State := idleWith Cfg.default { Pins.quiet with cfgIn := c } []

/-- The shortest frames: W = 1 and no parity, at one baud. -/
def tiny (inj : Bit) (prob : Rat) : Cfg := { w := 1, pm := .none, baud := 1, inj := inj, prob := prob, nb := 1 }

/-- encode_frame(1, 1, None) (95 section 2.2). -/
def tinyFrame : BitSeq := [false, true, true]

/-- A command in progress over two latched bits, one of them done if `k` = 1. -/
def sending (i : Instr) (ph : Phase) (inj : Bit) (k : Nat) (a : Option RndAnswer) : State :=
  { State.reset with
    cfg := tiny inj (1 / 2), cmd := some i, busy := true, phase := ph, bitIdx := k,
    txBuf := some [true, false], txWire := some ([true].take k), txTrace := some (([1] : List Rat).take k),
    rxBuf := some [true, false], rxSeq := some ([true].take k), pins := { Pins.quiet with rndAns := a } }

/-- A RUN of one byte with payload 1, in a phase between the bit steps. -/
def midRun (ph : Phase) (rdy : Bit) (a : Option RndAnswer) : State :=
  { State.reset with
    cfg := tiny true (1 / 2), cmd := some .run, busy := true, phase := ph, rdy := rdy, bitIdx := 3,
    curValue := some 1, encOut := some tinyFrame, txBuf := some tinyFrame, txWire := some tinyFrame,
    txTrace := some [1, 1, 1], rxBuf := some tinyFrame, rxSeq := some tinyFrame, rxElapsed := some 0,
    decOut := some { value := 1, fe := false, pe := false }, pins := { Pins.quiet with rndAns := a } }

theorem one_le_maxDataBits : 1 ≤ Config.maxDataBits := by unfold Config.maxDataBits; omega

theorem default_legal : CfgLegal Cfg.default := by
  refine ⟨by decide, ?_, by decide, by decide +kernel, by decide +kernel⟩
  unfold Config.maxDataBits; exact Nat.le_add_right 8 _

theorem tiny_legal (inj : Bit) {prob : Rat} (h : 0 ≤ prob ∧ prob ≤ 1) : CfgLegal (tiny inj prob) :=
  ⟨Nat.le_refl 1, one_le_maxDataBits, Nat.le_refl 1, h.1, h.2⟩

theorem idleWith_inv {c : Cfg} (p : Pins) (l : List Pins) (h : CfgLegal c) : StateInv (idleWith c p l) where
  cfg_legal := h
  idle_iff := by simp [idleWith, State.reset]
  cmd_of_phase := rfl
  rdy_iff := by simp [idleWith, State.reset]
  valid_of_busy := fun _ => rfl
  byte_of_run := by simp [idleWith, State.reset]
  elapsed_nonneg := by simp [idleWith, State.reset]
  phase_inv := trivial

theorem half_legal : (0 : Rat) ≤ 1 / 2 ∧ (1 / 2 : Rat) ≤ 1 := by decide +kernel

/-- The states of a RUN between its bit steps are states the invariant allows. -/
theorem midRun_inv (ph : Phase) (a : Option RndAnswer)
    (h : ph ∈ [Phase.rDraw, .rEncode, .rPoll, .rRxBegin, .rDecode, .rReport]) :
    StateInv (midRun ph (decide (ph ≠ .rDecode)) a) := by
  have f : encodeFrame 1 1 .none = tinyFrame := rfl
  have d : decodeFrame tinyFrame 1 .none = .ok { value := 1, fe := false, pe := false } := rfl
  simp only [List.mem_cons, List.not_mem_nil, or_false] at h
  rcases h with rfl | rfl | rfl | rfl | rfl | rfl <;>
    exact
      { cfg_legal := tiny_legal true half_legal
        idle_iff := by simp [midRun]
        cmd_of_phase := rfl
        rdy_iff := by simp [midRun]
        valid_of_busy := fun _ => rfl
        byte_of_run := fun _ => Nat.zero_lt_one
        elapsed_nonneg := by simp [midRun]
        phase_inv := by
          simp [PhaseInv, Framed, Drawn, Sent, State.frameBits, midRun, tiny, f, d]
          try rfl }

/-- A TRANSMIT in its bit steps is a state the invariant allows. -/
theorem sending_inv (inj : Bit) (a : Option RndAnswer) : StateInv (sending .transmit .tx inj 1 a) where
  cfg_legal := tiny_legal inj half_legal
  idle_iff := by simp [sending]
  cmd_of_phase := rfl
  rdy_iff := by simp [sending, State.reset]
  valid_of_busy := fun _ => rfl
  byte_of_run := by simp [sending]
  elapsed_nonneg := by simp [sending, State.reset]
  phase_inv := ⟨_, _, _, rfl, rfl, rfl, rfl, rfl, Nat.lt_succ_self 1⟩

/-! ### Well-formedness: each check refuses an ill-formed operand -/

/-- 30 R85: a value that needs one wire more than `din` has. -/
theorem test_din_too_wide : dinWellFormed (2 ^ Config.inWidth) = false := by simp [dinWellFormed]

theorem test_din_widest : dinWellFormed (2 ^ Config.inWidth - 1) = true := by simp [dinWellFormed]

/-- 30 R78: a sequence one bit longer than MAX_FRAME_BITS. -/
theorem test_frame_too_long : frameWellFormed (List.replicate (Config.maxFrameBits + 1) true) = false := by
  simp [frameWellFormed]

theorem test_frame_longest : frameWellFormed (List.replicate Config.maxFrameBits true) = true := by
  simp [frameWellFormed]

theorem test_pins_refuse_din : Pins.wellFormed { Pins.quiet with din := 2 ^ Config.inWidth } = false := by
  simp [Pins.wellFormed, dinWellFormed]

theorem test_pins_refuse_frame :
    Pins.wellFormed { Pins.quiet with frameIn := List.replicate (Config.maxFrameBits + 1) true } = false := by
  simp [Pins.wellFormed, frameWellFormed]

/-! ### The opcode map, written out from 30 R81 and the reserved codes of 30 R82 -/

theorem test_word_configure : decode 0b0001 = .ok .configure := rfl
theorem test_word_encode : decode 0b0010 = .ok .encode := rfl
theorem test_word_decode : decode 0b0011 = .ok .decode := rfl
theorem test_word_calc_parity : decode 0b0100 = .ok .calcParity := rfl
theorem test_word_transmit : decode 0b0101 = .ok .transmit := rfl
theorem test_word_receive : decode 0b0110 = .ok .receive := rfl
theorem test_word_wait_ready : decode 0b0111 = .ok .waitReady := rfl
theorem test_word_run : decode 0b1000 = .ok .run := rfl
theorem test_word_zero_reserved : decode 0b0000 = .error (.reservedOpcode 0b0000) := rfl
theorem test_word_nine_reserved : decode 0b1001 = .error (.reservedOpcode 0b1001) := rfl
theorem test_word_fifteen_reserved : decode 0b1111 = .error (.reservedOpcode 0b1111) := rfl
theorem test_table_word : decodeTableWord 8 0x8 = some .run ∧ decodeTableWord 8 0x9 = none := ⟨rfl, rfl⟩

/-- The first instruction after reset is the one offered (10 R26). -/
theorem test_fetch_word : field (·.cmd) (step (State.reset.withFetchWord 8 0x8)) = some (some .run) := rfl

/-! ### One step per command -/

/-- 95 section 2.8, row 3: the minimal legal values. -/
theorem test_configure_minimal :
    field (·.cfg) (exec .configure
        (withCfgIn { w := 1, pm := 0b00, baud := 1, inj := false, prob := 0, nb := 0 })) =
      some { w := 1, pm := .none, baud := 1, inj := false, prob := 0, nb := 0 } := by
  have h := one_le_maxDataBits
  simp [exec, execConfigure, latchOf, cfgOk, mode, withCfgIn, idleWith, field, complete, h]

/-- 95 section 2.8, row 5: the reserved PM code. -/
theorem test_configure_reserved_mode :
    field (fun s => (s.status, s.cfgValid, s.cfg)) (exec .configure
        (withCfgIn { w := 8, pm := 0b11, baud := 9600, inj := true, prob := 1 / 20, nb := 5 })) =
      some (.invalidConfiguration, false, Cfg.default) := by
  simp [exec, execConfigure, latchOf, cfgOk, mode, withCfgIn, idleWith, field, complete, raise]

/-- 95 section 2.2: 178 under Even (the source's E2). -/
theorem test_encode_178 : field (·.encOut) (exec .encode (withDin 178)) =
    some (some [false, false, true, false, false, true, true, false, true, false, true]) := rfl

/-- 95 section 2.2: 300 is truncated to 44. -/
theorem test_encode_truncates : field (·.encOut) (exec .encode (withDin 300)) =
    some (some [false, false, false, true, true, false, true, false, false, true, true]) := rfl

/-- 95 section 2.3: index 8 inverted gives (50, 0, 1). -/
theorem test_decode_flipped_data :
    field (·.decOut) (exec .decode
        (withFrame [false, false, true, false, false, true, true, false, false, false, true])) =
      some (some { value := 50, fe := false, pe := true }) := rfl

/-- 95 section 2.3: a frame without its last bit. -/
theorem test_decode_too_short :
    field (fun s => (s.status, s.decOut)) (exec .decode
        (withFrame [false, false, true, false, false, true, true, false, true, false])) =
      some (.invalidFrameShape, none) := rfl

/-- 95 section 2.1: 256 is truncated to 0, so the bit is 0 under Even. -/
theorem test_calc_parity_truncates : field (·.parOut) (exec .calcParity (withDin 256)) = some (some false) := rfl

/-- 95 section 2.1: 178 has four ones, 0 under Even. -/
theorem test_calc_parity_178 : field (·.parOut) (exec .calcParity (withDin 178)) = some (some false) := rfl

/-- 95 section 2.5: the empty frame completes in one step. -/
theorem test_transmit_empty :
    field (fun s => (s.status, s.busy, s.txWire)) (exec .transmit (withFrame [])) = some (.ok, false, some []) := rfl

/-- 95 section 2.4: the boundary draw u = PROB does not flip. -/
theorem test_transmit_boundary_draw :
    field (·.txWire) (step (sending .transmit .tx true 1 (some (.prob (1 / 2))))) =
      some (some [true, false]) := by decide +kernel

/-- 95 section 2.6: the last received bit completes the command with the sequence unchanged. -/
theorem test_receive_last_bit :
    field (fun s => (s.status, s.busy, s.rxSeq)) (step (sending .receive .rx true 1 none)) =
      some (.ok, false, some [true, false]) := rfl

/-- 95 section 2.6: the empty sequence. -/
theorem test_receive_empty : field (fun s => (s.busy, s.rxSeq)) (exec .receive (withFrame [])) = some (false, some []) :=
  rfl

/-- 95 section 2.7: WAIT_READY does not read CFG. -/
theorem test_wait_ready_not_configured :
    field (fun s => (s.status, s.busy)) (exec .waitReady { State.reset with cfgValid := false }) = some (.ok, false) :=
  rfl

/-- 95 section 2.9: RUN when CFG_VALID = 0. -/
theorem test_run_not_configured :
    field (fun s => (s.status, s.busy)) (exec .run { State.reset with cfgValid := false }) =
      some (.notConfigured, false) := rfl

/-- 95 P3, line 9: RUN with NB = 0. -/
theorem test_run_no_bytes :
    field (fun s => (s.status, s.busy, s.ev)) (exec .run { State.reset with cfg := { Cfg.default with nb := 0 } }) =
      some (.ok, false, []) := rfl

/-- 95 P5: reset in the middle of a command leaves EV and nothing else of it. -/
theorem test_reset_mid_command :
    field (fun s => (s.rdy, s.phase, s.ev))
        (step { midRun .rRx false none with ev := [.bit 0 true], pins := { Pins.quiet with rst := true } }) =
      some (true, .idle, [.bit 0 true]) := rfl

/-- 10 R30: TX_BUF and RX_BUF can be read on their ports. -/
theorem test_port_latched_frame :
    readPort .txBufOut (midRun .rPoll true none) = .ok (.bits tinyFrame) ∧
    readPort .rxBufOut State.reset = .error (.absentRead .rxBuf) := ⟨rfl, rfl⟩

/-- 70 R266: a result port whose register is absent cannot be read. -/
theorem test_port_absent : readPort .encOut State.reset = .error (.absentRead .encOut) := rfl

/-! ### Program text (30 R88, R89) -/

theorem test_text_binary : parseLine "ENCODE 0b10110 ; 22".toList = .command (.encode 22) := by decide
theorem test_text_frame : parseLine "DECODE [0,1,0,1]".toList = .command (.decode [false, true, false, true]) := by
  decide
theorem test_text_send : parseLine "SEND 178".toList = .send 178 := by decide
theorem test_text_configure :
    parseLine "CONFIGURE W=4, PM=Odd, BAUD=1200, INJ=1, PROB=1/2, NB=2".toList =
      .command (.configure { w := 4, pm := .odd, baud := 1200, inj := true, prob := 1 / 2, nb := 2 }) := by
  decide +kernel

/-! ### Witnesses: encoding, acceptance, reset -/

theorem witness_OpCodesDecodeByTheOpcodeMap :
    ((0x0 : OpCode).toNat = 0 ∨ 9 ≤ (0x0 : OpCode).toNat) ∧ ((0x9 : OpCode).toNat = 0 ∨ 9 ≤ (0x9 : OpCode).toNat) ∧
    ((0xF : OpCode).toNat = 0 ∨ 9 ≤ (0xF : OpCode).toNat) := by decide

theorem witness_StepRunsTheAcceptedCommand : ∀ i : Instr,
    let s := idleWith Cfg.default (offering (encode i)) []
    s.pins.rst = false ∧ s.busy = false ∧ s.pins.cmdValid = true ∧ decode s.pins.cmdOp = .ok i ∧
      i.wellFormed = true := by
  intro i; cases i <;> exact ⟨rfl, rfl, rfl, rfl, rfl⟩

theorem witness_ReservedOpCodeCompletesIllegalCommand : ∀ op ∈ [(0x0 : OpCode), 0x9, 0xF],
    let s := idleWith Cfg.default (offering op) []
    s.pins.rst = false ∧ s.busy = false ∧ s.phase = .idle ∧ s.cmd = none ∧ s.pins.cmdValid = true ∧
      (s.pins.cmdOp.toNat = 0 ∨ 9 ≤ s.pins.cmdOp.toNat) := by decide

theorem witness_OffersAndOperandsAreIgnoredWhileBusy :
    let s := sending .transmit .tx false 0 none
    s.busy = true ∧ (offering 0x1).rst = s.pins.rst ∧ (offering 0x1).rndAns = s.pins.rndAns := by decide

theorem witness_ResetSetsEveryRegister :
    State.pins { midRun .rRx false none with pins := { Pins.quiet with rst := true } } =
      { Pins.quiet with rst := true } := rfl

theorem witness_IdleBlockWaitsForAnOffer :
    State.reset.pins.rst = false ∧ State.reset.busy = false ∧ State.reset.pins.cmdValid = false := by decide

theorem witness_CommandsThatReadCfgNeedAValidConfiguration :
    State.cfgValid { State.reset with cfgValid := false } = false ∧
    ∀ i ∈ [Instr.encode, .decode, .calcParity, .transmit, .receive, .run],
      i = .encode ∨ i = .decode ∨ i = .calcParity ∨ i = .transmit ∨ i = .receive ∨ i = .run := by decide

theorem witness_CommandsThatReadCfgNeedAValidConfiguration_exempt :
    (∃ t, exec .configure { State.reset with cfgValid := false } = .next t) ∧
    ∃ t, exec .waitReady { State.reset with cfgValid := false } = .next t := ⟨⟨_, rfl⟩, ⟨_, rfl⟩⟩

/-! ### Witnesses: acceptance steps -/

/-- Legal at both ends of W and of PROB, for each mode code. -/
theorem witness_ConfigureLatchesOrRefuses_legal :
    ∀ w ∈ [1, Config.maxDataBits], ∀ p ∈ [(0 : Rat), 1], ∀ pm ∈ [(0b00, ParityMode.none), (0b01, .even), (0b10, .odd)],
      let c := (withCfgIn { w := w, pm := pm.1, baud := 1, inj := false, prob := p, nb := 0 }).pins.cfgIn
      (1 ≤ c.w ∧ c.w ≤ Config.maxDataBits ∧ c.pm ≠ 0b11 ∧ 1 ≤ c.baud ∧ 0 ≤ c.prob ∧ c.prob ≤ 1) ∧
      ((c.pm = 0b00 ∧ pm.2 = .none) ∨ (c.pm = 0b01 ∧ pm.2 = .even) ∨ (c.pm = 0b10 ∧ pm.2 = .odd)) := by
  have h := one_le_maxDataBits
  intro w hw p hp pm hpm
  simp only [List.mem_cons, List.not_mem_nil, or_false] at hw hp hpm
  rcases hw with rfl | rfl <;> rcases hp with rfl | rfl <;> rcases hpm with rfl | rfl | rfl <;>
    simp [withCfgIn, idleWith, h]

/-- Each check fails at its boundary. -/
theorem witness_ConfigureLatchesOrRefuses_illegal :
    ∀ c ∈ [({ w := 0, pm := 0, baud := 1, inj := false, prob := 0, nb := 0 } : CfgIn),
          { w := Config.maxDataBits + 1, pm := 0, baud := 1, inj := false, prob := 0, nb := 0 },
          { w := 1, pm := 0b11, baud := 1, inj := false, prob := 0, nb := 0 },
          { w := 1, pm := 0, baud := 0, inj := false, prob := 0, nb := 0 },
          { w := 1, pm := 0, baud := 1, inj := false, prob := -1, nb := 0 },
          { w := 1, pm := 0, baud := 1, inj := false, prob := 3 / 2, nb := 0 }],
      (withCfgIn c).pins.cfgIn = c ∧
      ¬ (1 ≤ c.w ∧ c.w ≤ Config.maxDataBits ∧ c.pm ≠ 0b11 ∧ 1 ≤ c.baud ∧ 0 ≤ c.prob ∧ c.prob ≤ 1) := by
  intro c hc
  simp only [List.mem_cons, List.not_mem_nil, or_false] at hc
  refine ⟨rfl, ?_⟩
  rcases hc with rfl | rfl | rfl | rfl | rfl | rfl <;> norm_num

theorem witness_EncodeWritesTheFrame :
    (withDin 178).cfgValid = true ∧ State.cfgValid { withDin 178 with cfgValid := false } = false := ⟨rfl, rfl⟩

/-- L = 11 for the default configuration: one bit too few, one too many, none, and exactly L. -/
theorem witness_DecodeWritesTheTripleOrRefusesTheShape :
    (∀ n ∈ [0, 10, 12], (withFrame (List.replicate n true)).cfgValid = true ∧
      (withFrame (List.replicate n true)).pins.frameIn.length ≠
        2 + Cfg.default.w + (if Cfg.default.pm = .none then 0 else 1)) ∧
    (withFrame (List.replicate 11 true)).cfgValid = true ∧
    (withFrame (List.replicate 11 true)).pins.frameIn.length =
      2 + Cfg.default.w + (if Cfg.default.pm = .none then 0 else 1) ∧
    State.cfgValid { withFrame [] with cfgValid := false } = false := by decide

theorem witness_CalcParityWritesTheParityBit :
    (withDin 7).cfgValid = true ∧ State.cfgValid { withDin 7 with cfgValid := false } = false := ⟨rfl, rfl⟩

theorem witness_TransmitLatchesTheFrame :
    ((withFrame []).cfgValid = true ∧ (withFrame []).pins.frameIn = []) ∧
    ((withFrame [true]).cfgValid = true ∧ (withFrame [true]).pins.frameIn ≠ []) := by decide

theorem witness_ReceiveLatchesTheSequence :
    ((withFrame []).cfgValid = true ∧ (withFrame []).pins.frameIn = []) ∧
    ((withFrame [true]).cfgValid = true ∧ (withFrame [true]).pins.frameIn ≠ []) := by decide

theorem witness_WaitReadyPollsTheFlag : ∀ r : Bit,
    let s := { sending .waitReady .poll false 0 none with rdy := r }
    s.rdy = r ∧ s.pins.rst = false ∧ s.busy = true ∧ s.phase = .poll := by decide

theorem witness_RunStartsOrCompletesAtOnce :
    (State.reset.cfgValid = true ∧ State.reset.cfg.nb ≠ 0) ∧
    (idleWith { Cfg.default with nb := 0 } Pins.quiet []).cfgValid = true ∧
    (idleWith { Cfg.default with nb := 0 } Pins.quiet []).cfg.nb = 0 := by decide

/-- Every command answers a next state; RUN and WAIT_READY cover the inequalities of the clauses. -/
theorem witness_AcceptanceWritesOnlyTheCommandsRegisters :
    (∃ t, exec .run State.reset = .next t ∧ t.busy = true) ∧ (∃ t, exec .waitReady State.reset = .next t) ∧
    ∃ t, exec .encode (withDin 1) = .next t := ⟨⟨_, rfl, rfl⟩, ⟨_, rfl⟩, ⟨_, rfl⟩⟩

/-- A shape failure, a guard failure and a refused configuration. -/
theorem witness_FailedCommandsHaveNoPartialEffect :
    (State.reset.busy = false ∧ State.reset.phase = .idle ∧ State.reset.cmd = none ∧
      ∃ t, exec .decode State.reset = .next t ∧ t.cl = State.reset.cl ++ [(encode .decode, .invalidFrameShape)] ∧
        Status.invalidFrameShape ≠ .ok) ∧
    (∃ t, exec .run { State.reset with cfgValid := false } = .next t ∧
      t.cl = State.reset.cl ++ [(encode .run, .notConfigured)]) ∧
    ∃ t, exec .configure State.reset = .next t ∧
      t.cl = State.reset.cl ++ [(encode .configure, .invalidConfiguration)] := by
  refine ⟨⟨rfl, rfl, rfl, _, rfl, rfl, by decide⟩, ⟨_, rfl, rfl⟩, ?_⟩
  simp [exec, execConfigure, latchOf, cfgOk, State.reset, Pins.quiet, raise, complete]

/-! ### Witnesses: the codec -/

theorem witness_ParityBitCountsOnes :
    [true, false].Perm [false, true] ∧ (dataBits 2 1).Perm (dataBits 2 2) := by decide

theorem witness_SentFrameLayout : (0 < 1 ∧ 7 < 8) ∧ ParityMode.odd ≠ .none := by decide

theorem witness_DecodeFrameReadsTheFields :
    [true].length ≠ 2 + 1 + (if ParityMode.none = .none then 0 else 1) ∧
    tinyFrame.length = 2 + 1 + (if ParityMode.none = .none then 0 else 1) ∧
    (tinyFrame ++ [true]).length = 2 + 1 + (if ParityMode.even = .none then 0 else 1) ∧
    ParityMode.even ≠ .none := by decide

theorem witness_SentFrameDecodesToItsValue : (1 ≤ 1 ∧ 1 < 2 ^ 1) ∧ 1 ≤ 8 ∧ 255 < 2 ^ 8 := by decide

theorem witness_OneFlippedBitIsAParityError :
    (1 ≤ 1 ∧ 1 < 2 ^ 1 ∧ ParityMode.even ≠ .none ∧ 0 < 1) ∧ (1 ≤ 8 ∧ 255 < 2 ^ 8 ∧ ParityMode.odd ≠ .none ∧ 7 < 8) := by
  decide

theorem witness_FlippedStopBitIsAFramingError :
    1 ≤ 1 ∧ tinyFrame.length = 2 + 1 + (if ParityMode.none = .none then 0 else 1) ∧
    tinyFrame[2 + 1 + (if ParityMode.none = .none then 0 else 1) - 1]? = some true := by decide

/-- Two frames that share their stop bit and their data but not the start bit; a data bit and a stop bit to flip. -/
theorem witness_ErrorChecksAreIndependent :
    (decodeFrame tinyFrame 1 .none = .ok { value := 1, fe := false, pe := false } ∧
      decodeFrame [true, true, true] 1 .none = .ok { value := 1, fe := false, pe := false } ∧
      tinyFrame[tinyFrame.length - 1]? = [true, true, true][3 - 1]? ∧
      (∀ k ∈ [1, 2], tinyFrame[k]? = [true, true, true][k]?)) ∧
    (1 < 2 ^ 1 ∧ 0 < 1 ∧ ParityMode.even ≠ .none) ∧ 1 ≤ 1 := by decide

/-- The first data bit and the parity bit inverted. -/
theorem witness_EvenNumberOfFlipsIsUndetected :
    1 ≤ 1 ∧ 1 < 2 ^ 1 ∧ ParityMode.even ≠ .none ∧ [false, true, true, false].length = 1 + 3 ∧
    (([false, true, true, false].drop 1).take (1 + 1)).count true % 2 = 0 ∧
    (0 < 1 ∧ [false, true, true, false][1 + 0]? = some true) := by decide

/-! ### Witnesses: the channel -/

/-- Draws below, at and above PROB, and the two exact cases. -/
theorem witness_InjectionTrialComparesWithProb :
    (tiny false 0).inj = false ∧
    (∀ u ∈ [(0 : Rat), 1 / 2, 3 / 4], ∀ p ∈ [(0 : Rat), 1 / 2, 1],
      let s := idleWith (tiny true p) { Pins.quiet with rndAns := some (.prob u) } []
      s.cfg.inj = true ∧ s.cfg.prob = p ∧ s.pins.rndAns = some (.prob u) ∧ 0 ≤ u ∧ u < 1) ∧
    ((0 : Rat) < 1 / 2 ∧ ¬ (1 / 2 : Rat) < 1 / 2) := by decide +kernel

/-- Without and with a draw, in both phases, at the first and at the last of two bits. -/
theorem witness_TransmitBitStepSendsOneBit :
    ∀ ph ∈ [Phase.tx, .rTx], ∀ k ∈ [0, 1], ∀ inj : Bit,
      let s := sending .transmit ph inj k (some (.prob (1 / 4)))
      s.pins.rst = false ∧ s.busy = true ∧ (s.phase = .tx ∨ s.phase = .rTx) ∧ s.txBuf = some [true, false] ∧
      s.txWire = some ([true].take k) ∧ s.txTrace = some (([1] : List Rat).take k) ∧
      [true, false][s.bitIdx]? = some (decide (k = 0)) ∧ 1 ≤ s.cfg.baud ∧
      (s.cfg.inj = false ∨ (s.cfg.inj = true ∧ s.pins.rndAns = some (.prob (1 / 4)) ∧
        (0 : Rat) ≤ 1 / 4 ∧ (1 / 4 : Rat) < 1)) ∧
      (k = 0 ↔ s.bitIdx + 1 ≠ [true, false].length) := by decide +kernel

theorem witness_ReceiveBitStepCopiesOneBit :
    ∀ ph ∈ [Phase.rx, .rRx], ∀ k ∈ [0, 1],
      let s := sending .receive ph false k none
      s.pins.rst = false ∧ s.busy = true ∧ (s.phase = .rx ∨ s.phase = .rRx) ∧ s.rxBuf = some [true, false] ∧
      s.rxSeq = some ([true].take k) ∧ [true, false][s.bitIdx]? = some (decide (k = 0)) ∧ 1 ≤ s.cfg.baud ∧
      (k = 0 ↔ s.bitIdx + 1 ≠ [true, false].length) := by decide

/-- One bit with one trial. -/
theorem witness_TransmitCompletesAfterOneStepPerBit :
    let s := idleWith (tiny true (1 / 2)) { offering 0x5 with frameIn := [true] }
      [{ Pins.quiet with rndAns := some (.prob 0) }]
    s.pins.rst = false ∧ s.busy = false ∧ s.pins.cmdValid = true ∧ s.pins.cmdOp = 0x5 ∧ s.cfgValid = true ∧
    1 ≤ s.cfg.baud ∧ TrialsFor s.cfg s.pins.frameIn.length [0] ∧
    List.Forall₂ Serves (s.script.take s.pins.frameIn.length) (trialAnswers s.cfg s.pins.frameIn.length [0]) := by
  refine ⟨rfl, rfl, rfl, rfl, rfl, by decide, ?_, ?_⟩
  · simp [TrialsFor, idleWith, tiny]
  · simp [Serves, trialAnswers, idleWith, tiny, Pins.quiet]

theorem witness_ReceiveCopiesTheWholeSequence :
    let s := idleWith (tiny false 0) { offering 0x6 with frameIn := [true, false] } [Pins.quiet, Pins.quiet]
    s.pins.rst = false ∧ s.busy = false ∧ s.pins.cmdValid = true ∧ s.pins.cmdOp = 0x6 ∧ s.cfgValid = true ∧
    1 ≤ s.cfg.baud ∧ s.pins.frameIn.length ≤ s.script.length ∧
    ∀ p ∈ s.script.take s.pins.frameIn.length, p.rst = false := by decide

/-- A payload draw and a trial draw that no one answers. -/
theorem witness_UnansweredDrawHoldsTheBlock :
    (StateInv (midRun .rDraw true none) ∧ (midRun .rDraw true none).pins.rst = false ∧
      rndReq (midRun .rDraw true none) = some (.value 1) ∧ (midRun .rDraw true none).pins.rndAns = none) ∧
    (StateInv (sending .transmit .tx true 1 none) ∧ (sending .transmit .tx true 1 none).pins.rst = false ∧
      rndReq (sending .transmit .tx true 1 none) = some .prob ∧
      (sending .transmit .tx true 1 none).pins.rndAns = none) :=
  ⟨⟨midRun_inv .rDraw none (by decide), rfl, rfl, rfl⟩, ⟨sending_inv true none, rfl, rfl, rfl⟩⟩

/-! ### Witnesses: the session -/

theorem witness_RunDrawsAndEncodesThePayload :
    let s := midRun .rDraw true (some (.value 1))
    let e := midRun .rEncode true none
    (s.pins.rst = false ∧ s.busy = true ∧ s.phase = .rDraw ∧ s.pins.rndAns = some (.value 1) ∧ 1 < 2 ^ s.cfg.w) ∧
    (e.pins.rst = false ∧ e.busy = true ∧ e.phase = .rEncode ∧ e.curValue = some 1) := by decide

theorem witness_RunPollsAndEntersReceiverBusy :
    (∀ r : Bit, let s := midRun .rPoll r none
      s.pins.rst = false ∧ s.busy = true ∧ s.phase = .rPoll ∧ s.rdy = r) ∧
    let s := midRun .rRxBegin true none
    s.pins.rst = false ∧ s.busy = true ∧ s.phase = .rRxBegin ∧ s.txWire = some tinyFrame := by decide

/-- A well-shaped sequence, and one that is not. -/
theorem witness_RunDecodesAndLeavesReceiverBusy :
    let s := midRun .rDecode false none
    (s.pins.rst = false ∧ s.busy = true ∧ s.phase = .rDecode ∧ s.rxSeq = some tinyFrame ∧
      decodeFrame tinyFrame s.cfg.w s.cfg.pm = .ok { value := 1, fe := false, pe := false }) ∧
    decodeFrame [true] s.cfg.w s.cfg.pm = .shape := by decide

/-- The last byte, and a byte before it. -/
theorem witness_RunReportsAndGoesOn :
    let s := midRun .rReport true none
    (s.pins.rst = false ∧ s.busy = true ∧ s.phase = .rReport ∧
      s.decOut = some { value := 1, fe := false, pe := false } ∧ s.curValue = some 1 ∧ s.rxElapsed = some 0) ∧
    ¬ s.byteIdx + 1 < s.cfg.nb ∧ s.byteIdx + 1 < ({ s with cfg := { s.cfg with nb := 2 } } : State).cfg.nb := by
  decide

theorem witness_OnlyTwoPhasesWriteRdy :
    (∃ t, step (midRun .rRxBegin true none) = .next t ∧ t.rdy ≠ (midRun .rRxBegin true none).rdy) ∧
    ∃ t, step (midRun .rDecode false none) = .next t ∧ t.rdy ≠ (midRun .rDecode false none).rdy :=
  ⟨⟨_, rfl, by decide⟩, ⟨_, rfl, by decide⟩⟩

theorem witness_TheGuardAlwaysPasses :
    StateInv (midRun .rPoll true none) ∧ (midRun .rPoll true none).pins.rst = false ∧
    (midRun .rPoll true none).busy = true ∧ (midRun .rPoll true none).phase = .rPoll :=
  ⟨midRun_inv .rPoll none (by decide), rfl, rfl, rfl⟩

theorem witness_NoShapeErrorInARun :
    StateInv (midRun .rDecode false none) ∧ (midRun .rDecode false none).pins.rst = false ∧
    (midRun .rDecode false none).phase = .rDecode := ⟨midRun_inv .rDecode none (by decide), rfl, rfl⟩

theorem witness_ErrorFreeRoundTripReportsTheSentValue :
    StateInv (midRun .rReport true none) ∧ (midRun .rReport true none).pins.rst = false ∧
    (midRun .rReport true none).phase = .rReport ∧
    (midRun .rReport true none).txWire = (midRun .rReport true none).txBuf :=
  ⟨midRun_inv .rReport none (by decide), rfl, rfl, rfl⟩

/-- One byte of payload 1 with W = 1, no parity, and three trials. -/
theorem witness_RunCompletesWithEveryByteReported :
    let c := tiny true (1 / 2)
    let bytes : List (Nat × List Rat) := [(1, [0, 0, 0])]
    let answers := bytes.flatMap fun b => byteAnswers c b.1 b.2
    let s := idleWith c (offering 0x8) (answers.map fun a => { Pins.quiet with rndAns := a })
    StateInv s ∧ s.pins.rst = false ∧ s.busy = false ∧ s.pins.cmdValid = true ∧ s.pins.cmdOp = 0x8 ∧
    s.cfgValid = true ∧ 1 ≤ c.nb ∧ bytes.length = c.nb ∧
    (∀ b ∈ bytes, b.1 < 2 ^ c.w ∧ TrialsFor c (frameLength c.w c.pm) b.2) ∧
    List.Forall₂ Serves (s.script.take (c.nb * (2 * frameLength c.w c.pm + 6))) answers := by
  refine ⟨idleWith_inv _ _ (tiny_legal true half_legal), rfl, rfl, rfl, rfl, rfl, by decide, rfl, ?_, ?_⟩
  · simp [tiny, TrialsFor, frameLength, ParityMode.count]
  · simp [Serves, byteAnswers, trialAnswers, idleWith, tiny, Pins.quiet, frameLength, ParityMode.count,
      List.replicate]

theorem witness_SendRoundTripsTheValue :
    let s := idleWith (tiny false 0) Pins.quiet []
    StateInv s ∧ s.busy = false ∧ s.cfgValid = true ∧ s.cfg.inj = false ∧ s.script = [] :=
  ⟨idleWith_inv _ _ (tiny_legal false (by decide +kernel)), rfl, rfl, rfl, rfl⟩

/-! ### Witnesses: invariants, safety, progress -/

theorem witness_EveryStepKeepsTheInvariant :
    StateInv (midRun .rPoll true none) ∧ ∃ t, step (midRun .rPoll true none) = .next t :=
  ⟨midRun_inv .rPoll none (by decide), _, rfl⟩

/-- A payload draw that is answered in range. -/
theorem answered_in_range : AnswerInRange (midRun .rDraw true (some (.value 1))) := by
  intro r a hr ha
  obtain rfl : RndRequest.value 1 = r := Option.some.inj hr
  obtain rfl : RndAnswer.value 1 = a := Option.some.inj ha
  exact Nat.one_lt_two

theorem witness_NoStepFaultsUnderTheInvariant :
    StateInv (midRun .rDraw true (some (.value 1))) ∧ AnswerInRange (midRun .rDraw true (some (.value 1))) :=
  ⟨midRun_inv .rDraw _ (by decide), answered_in_range⟩

/-- A buffer and a port sample of exactly MAX_FRAME_BITS bits. -/
theorem witness_SequencesStayWithinMaxFrameBits :
    let longest := List.replicate Config.maxFrameBits true
    let s := { idleWith Cfg.default { Pins.quiet with frameIn := longest } [] with rxBuf := some longest }
    StateInv s ∧ BuffersFit s ∧ PinsFit s ∧ ∃ t, step s = .next t := by
  refine ⟨?_, ?_, ?_, ⟨_, rfl⟩⟩
  · exact { idleWith_inv Pins.quiet [] default_legal with }
  · constructor <;> simp [SeqFits, idleWith, State.reset]
  · simp [PinsFit, Pins.wellFormed, dinWellFormed, frameWellFormed, idleWith, Pins.quiet]

theorem witness_EveryAnsweredStepMakesProgress :
    let s := midRun .rDraw true (some (.value 1))
    StateInv s ∧ s.busy = true ∧ s.pins.rst = false ∧ Answered s := by
  refine ⟨midRun_inv .rDraw _ (by decide), rfl, rfl, ?_⟩
  intro r hr
  obtain rfl : RndRequest.value 1 = r := Option.some.inj hr
  exact ⟨.value 1, rfl, Nat.one_lt_two⟩

theorem witness_AcceptedCommandsNeedTheStepsOfTheTable :
    StateInv State.reset ∧ State.reset.busy = false ∧ ∃ t, exec .run State.reset = .next t :=
  ⟨idleWith_inv Pins.quiet [] default_legal, rfl, _, rfl⟩

/-- Two states that differ in BAUD and in the elapsed time. -/
theorem witness_TimingNeverChangesAResult :
    let s := midRun .rReport true none
    let t := { s with cfg := { s.cfg with baud := 9600 }, rxElapsed := some 7 }
    1 ≤ s.cfg.baud ∧ 1 ≤ t.cfg.baud ∧ s.untimed = t.untimed := ⟨by decide, by decide, rfl⟩

theorem witness_ResetStateSatisfiesTheInvariant : StateInv (idleWith Cfg.default Pins.quiet []) :=
  idleWith_inv _ _ default_legal

/-! ### Witnesses: what steps leave alone -/

theorem witness_HistoriesOnlyGrow : ∃ t, step (midRun .rReport true none) = .next t := ⟨_, rfl⟩

/-- A reset from another configuration, and a refused CONFIGURE. -/
theorem witness_OnlyConfigureAndResetWriteCfg :
    (∃ t, step { midRun .rPoll true none with pins := { Pins.quiet with rst := true } } = .next t ∧
      t.cfg ≠ (midRun .rPoll true none).cfg) ∧
    ∃ t, step (idleWith Cfg.default (offering 0x1) []) = .next t ∧ t.cfgValid ≠ State.reset.cfgValid :=
  ⟨⟨_, rfl, by decide⟩, ⟨_, rfl, by decide⟩⟩

theorem witness_StatusIsWrittenByCompletionsOnly :
    (midRun .rReport true none).pins.rst = false ∧ ∃ t, step (midRun .rReport true none) = .next t := ⟨rfl, _, rfl⟩

theorem witness_EventsComeFromTransmitAndReportSteps :
    (∃ t, step (midRun .rReport true none) = .next t ∧ t.ev ≠ (midRun .rReport true none).ev) ∧
    ∃ t, step (sending .transmit .tx false 0 none) = .next t ∧ t.ev ≠ (sending .transmit .tx false 0 none).ev :=
  ⟨⟨_, rfl, by decide⟩, ⟨_, rfl, by decide⟩⟩

theorem witness_AnswersAreConsumedOnlyWhenAsked :
    ∃ t, step (midRun .rDraw true (some (.value 1))) = .next t ∧
      t.rndTaken ≠ (midRun .rDraw true (some (.value 1))).rndTaken := ⟨_, rfl, by decide⟩

theorem witness_CommandsInProgressWriteOnlyTheirRegisters :
    (midRun .rPoll true none).pins.rst = false ∧ (midRun .rPoll true none).busy = true ∧
    ∃ t, step (midRun .rPoll true none) = .next t := ⟨rfl, rfl, _, rfl⟩

/-- The reset state has every result register absent; a state with all of them present. -/
theorem witness_ResultPortsShowTheRegisterOrFault :
    let s := { midRun .rReport true none with parOut := some true }
    (State.reset.encOut = none ∧ State.reset.parOut = none ∧ State.reset.decOut = none ∧ State.reset.txWire = none ∧
      State.reset.txTrace = none ∧ State.reset.rxSeq = none ∧ State.reset.rxElapsed = none ∧
      State.reset.txBuf = none ∧ State.reset.rxBuf = none) ∧
    s.encOut = some tinyFrame ∧ s.parOut = some true ∧
    s.decOut = some { value := 1, fe := false, pe := false } ∧ s.txWire = some tinyFrame ∧
    s.txTrace = some [1, 1, 1] ∧ s.rxSeq = some tinyFrame ∧ s.rxElapsed = some 0 ∧ s.txBuf = some tinyFrame ∧
    s.rxBuf = some tinyFrame := by decide +kernel

end Sys2Proof.Tests
end

section
/-! The steps of the block as relations with named cases, read off the inversion lemmas of Laws/Ops.lean, and the
statements about what every step keeps and leaves alone (10 R20 to R39). -/

namespace Sys2Proof.Machine

/-! ### The cases of a step -/

/-- The acceptance step of a command, case by case (43 R200; 40 R103 to R105; 41 R130, R140; 42 R160, R163; 60 R225). -/
inductive AcceptStep (s : State) : Instr → State → Prop
  | configured {c : Cfg} (hc : latchOf s.pins.cfgIn = some c) :
      AcceptStep s .configure (complete 0x1 .ok { s with cfg := c, cfgValid := true })
  | configRefused (hc : latchOf s.pins.cfgIn = none) :
      AcceptStep s .configure (complete 0x1 .invalidConfiguration { s with cfgValid := false })
  | unconfigured {i : Instr} (hi : i ≠ .configure ∧ i ≠ .waitReady) (hv : s.cfgValid = false) :
      AcceptStep s i (complete (encode i) .notConfigured s)
  | encoded (hv : s.cfgValid = true) :
      AcceptStep s .encode (complete 0x2 .ok { s with encOut := some (encodeFrame s.pins.din s.cfg.w s.cfg.pm) })
  | malformed (hv : s.cfgValid = true) (hd : decodeFrame s.pins.frameIn s.cfg.w s.cfg.pm = .shape) :
      AcceptStep s .decode (complete 0x3 .invalidFrameShape s)
  | decoded {d : Decoded} (hv : s.cfgValid = true) (hd : decodeFrame s.pins.frameIn s.cfg.w s.cfg.pm = .ok d) :
      AcceptStep s .decode (complete 0x3 .ok { s with decOut := some d })
  | parityTaken (hv : s.cfgValid = true) :
      AcceptStep s .calcParity (complete 0x4 .ok
        { s with parOut := some (parityBit (trunc s.cfg.w s.pins.din) s.cfg.w s.cfg.pm) })
  | sentNothing (hv : s.cfgValid = true) (hlen : s.pins.frameIn.length = 0) :
      AcceptStep s .transmit (complete 0x5 .ok
        { s with txBuf := some s.pins.frameIn, txWire := some [], txTrace := some [], bitIdx := 0 })
  | transmitBegun (hv : s.cfgValid = true) (hlen : s.pins.frameIn.length ≠ 0) :
      AcceptStep s .transmit (begin .transmit .tx
        { s with txBuf := some s.pins.frameIn, txWire := some [], txTrace := some [], bitIdx := 0 })
  | receivedNothing (hv : s.cfgValid = true) (hlen : s.pins.frameIn.length = 0) :
      AcceptStep s .receive (complete 0x6 .ok
        (drawElapsed { s with rxBuf := some s.pins.frameIn, rxSeq := some [], bitIdx := 0 }))
  | receiveBegun (hv : s.cfgValid = true) (hlen : s.pins.frameIn.length ≠ 0) :
      AcceptStep s .receive (begin .receive .rx
        { s with rxBuf := some s.pins.frameIn, rxSeq := some [], bitIdx := 0 })
  | ready (hr : s.rdy = true) : AcceptStep s .waitReady (complete 0x7 .ok s)
  | waitBegun (hr : s.rdy = false) : AcceptStep s .waitReady (begin .waitReady .poll s)
  | ranNothing (hv : s.cfgValid = true) (hn : s.cfg.nb = 0) :
      AcceptStep s .run (complete 0x8 .ok { s with byteIdx := 0 })
  | runBegun (hv : s.cfgValid = true) (hn : s.cfg.nb ≠ 0) :
      AcceptStep s .run (begin .run .rDraw { s with byteIdx := 0 })

theorem acceptStep_of_exec {i : Instr} {s t : State} (h : exec i s = .next t) : AcceptStep s i t := by
  rcases exec_eq_next h with
    ⟨rfl, c, hc, rfl⟩ | ⟨rfl, hc, rfl⟩ | ⟨hi, hw, hv, rfl⟩ | ⟨rfl, hv, rfl⟩ | ⟨rfl, hv, hd, rfl⟩ |
    ⟨rfl, hv, d, hd, rfl⟩ | ⟨rfl, hv, rfl⟩ | ⟨rfl, hv, _, rfl, ⟨hlen, rfl⟩ | ⟨hlen, rfl⟩⟩ |
    ⟨rfl, hv, _, rfl, ⟨hlen, rfl⟩ | ⟨hlen, rfl⟩⟩ | ⟨rfl, hr, rfl⟩ | ⟨rfl, hr, rfl⟩ | ⟨rfl, hv, hn, rfl⟩ |
    ⟨rfl, hv, hn, rfl⟩
  · exact .configured hc
  · exact .configRefused hc
  · exact .unconfigured ⟨hi, hw⟩ hv
  · exact .encoded hv
  · exact .malformed hv hd
  · exact .decoded hv hd
  · exact .parityTaken hv
  · exact .sentNothing hv hlen
  · exact .transmitBegun hv hlen
  · exact .receivedNothing hv hlen
  · exact .receiveBegun hv hlen
  · exact .ready hr
  · exact .waitBegun hr
  · exact .ranNothing hv hn
  · exact .runBegun hv hn

/-- The steps that hold: a poll that sees RDY = 0, or a draw without an answer (42 R161, 70 R262). -/
def Holds (s : State) : Prop :=
  ((s.phase = .poll ∨ s.phase = .rPoll) ∧ s.rdy = false) ∨
    ((s.phase = .rDraw ∨ ((s.phase = .tx ∨ s.phase = .rTx) ∧ s.cfg.inj = true)) ∧ s.pins.rndAns = none)

/-- One bit of the latched buffer `buf` is sent, with the answers `draws` consumed (41 R131). -/
inductive BitSent (s : State) (buf : BitSeq) : State → Prop
  | mk {wire : BitSeq} {trace : List Seconds} {b f : Bit} {draws : List RndAnswer}
      (hbuf : s.txBuf = some buf) (hwire : s.txWire = some wire) (htrace : s.txTrace = some trace)
      (hbit : buf[s.bitIdx]? = some b) (hbaud : s.cfg.baud ≠ 0) :
      BitSent s buf
        { s with rndTaken := s.rndTaken ++ draws, ev := s.ev ++ [.bit s.bitIdx (b ^^ f)]
                 txWire := some (wire ++ [b ^^ f]), txTrace := some (trace ++ [1 / (s.cfg.baud : Rat)])
                 bitIdx := s.bitIdx + 1 }

/-- One bit of the latched buffer `buf` is copied (41 R141). -/
inductive BitReceived (s : State) (buf : BitSeq) : State → Prop
  | mk {seq : BitSeq} {b : Bit} (hbuf : s.rxBuf = some buf) (hseq : s.rxSeq = some seq)
      (hbit : buf[s.bitIdx]? = some b) (hbaud : s.cfg.baud ≠ 0) :
      BitReceived s buf { s with rxSeq := some (seq ++ [b]), bitIdx := s.bitIdx + 1 }

theorem bitSent_of_txBitStep {last : State → State} {s t : State} (h : txBitStep last s = .next t) :
    (s.cfg.inj = true ∧ s.pins.rndAns = none ∧ t = s) ∨
      ∃ buf w, BitSent s buf w ∧ t = if s.bitIdx + 1 = buf.length then last w else w := by
  obtain ⟨buf, wire, trace, b, hbuf, hwire, htrace, hbit, hbaud, hhold | ⟨f, s₁, hdraw, rfl⟩⟩ :=
    txBitStep_eq_next.mp h
  · exact .inl hhold
  · have hs₁ : ∃ draws, s₁ = { s with rndTaken := s.rndTaken ++ draws } := by
      rcases hdraw with ⟨_, _, rfl⟩ | ⟨u, _, _, _, _, rfl⟩
      · exact ⟨[], by simp⟩
      · exact ⟨[.prob u], rfl⟩
    obtain ⟨draws, rfl⟩ := hs₁
    exact .inr ⟨buf, _, .mk hbuf hwire htrace hbit hbaud, rfl⟩

theorem bitReceived_of_rxBitStep {last : State → State} {s t : State} (h : rxBitStep last s = .next t) :
    ∃ buf w, BitReceived s buf w ∧ t = if s.bitIdx + 1 = buf.length then last (drawElapsed w) else w := by
  obtain ⟨buf, seq, b, hbuf, hseq, hbit, hbaud, rfl⟩ := rxBitStep_eq_next.mp h
  exact ⟨buf, _, .mk hbuf hseq hbit hbaud, rfl⟩

/-- The step of a command in progress, case by case (10 R28; 41 R131, R141; 42 R160 to R176). -/
inductive BusyStep (s : State) : State → Prop
  | held (hh : Holds s) : BusyStep s s
  | ready (hp : s.phase = .poll) (hr : s.rdy = true) : BusyStep s (complete 0x7 .ok s)
  | bitSent {buf : BitSeq} {w : State} (hp : s.phase = .tx ∨ s.phase = .rTx) (hw : BitSent s buf w)
      (hmore : s.bitIdx + 1 ≠ buf.length) : BusyStep s w
  | lastBitSent {buf : BitSeq} {w : State} (hp : s.phase = .tx) (hw : BitSent s buf w)
      (hlast : s.bitIdx + 1 = buf.length) : BusyStep s (complete 0x5 .ok w)
  | frameSent {buf : BitSeq} {w : State} (hp : s.phase = .rTx) (hw : BitSent s buf w)
      (hlast : s.bitIdx + 1 = buf.length) : BusyStep s (goto .rRxBegin w)
  | bitReceived {buf : BitSeq} {w : State} (hp : s.phase = .rx ∨ s.phase = .rRx) (hw : BitReceived s buf w)
      (hmore : s.bitIdx + 1 ≠ buf.length) : BusyStep s w
  | lastBitReceived {buf : BitSeq} {w : State} (hp : s.phase = .rx) (hw : BitReceived s buf w)
      (hlast : s.bitIdx + 1 = buf.length) : BusyStep s (complete 0x6 .ok (drawElapsed w))
  | frameReceived {buf : BitSeq} {w : State} (hp : s.phase = .rRx) (hw : BitReceived s buf w)
      (hlast : s.bitIdx + 1 = buf.length) : BusyStep s (goto .rDecode (drawElapsed w))
  | payloadDrawn {v : Nat} (hp : s.phase = .rDraw) (ha : s.pins.rndAns = some (.value v)) (hv : v < 2 ^ s.cfg.w) :
      BusyStep s (goto .rEncode { takeAnswer (.value v) s with curValue := some v })
  | frameEncoded {v : Nat} (hp : s.phase = .rEncode) (hv : s.curValue = some v) :
      BusyStep s (goto .rPoll
        { s with encOut := some (encodeFrame v s.cfg.w s.cfg.pm), txBuf := some (encodeFrame v s.cfg.w s.cfg.pm) })
  | sendBegun (hp : s.phase = .rPoll) (hr : s.rdy = true) :
      BusyStep s (goto .rTx { s with txWire := some [], txTrace := some [], bitIdx := 0 })
  | receiveBegun {wire : BitSeq} (hp : s.phase = .rRxBegin) (hwire : s.txWire = some wire) :
      BusyStep s (goto .rRx { s with rdy := false, rxBuf := some wire, rxSeq := some [], bitIdx := 0 })
  | malformed {seq : BitSeq} (hp : s.phase = .rDecode) (hseq : s.rxSeq = some seq)
      (hd : decodeFrame seq s.cfg.w s.cfg.pm = .shape) :
      BusyStep s (complete 0x8 .invalidFrameShape { s with rdy := true })
  | decoded {seq : BitSeq} {d : Decoded} (hp : s.phase = .rDecode) (hseq : s.rxSeq = some seq)
      (hd : decodeFrame seq s.cfg.w s.cfg.pm = .ok d) :
      BusyStep s (goto .rReport { s with decOut := some d, rdy := true })
  | nextByte {d : Decoded} {v : Nat} {e : Seconds} (hp : s.phase = .rReport) (hd : s.decOut = some d)
      (hv : s.curValue = some v) (he : s.rxElapsed = some e) (hmore : s.byteIdx + 1 < s.cfg.nb) :
      BusyStep s (goto .rDraw
        { emit (.summary s.byteIdx v d.value d.fe d.pe e) s with byteIdx := s.byteIdx + 1 })
  | lastByte {d : Decoded} {v : Nat} {e : Seconds} (hp : s.phase = .rReport) (hd : s.decOut = some d)
      (hv : s.curValue = some v) (he : s.rxElapsed = some e) (hlast : ¬ s.byteIdx + 1 < s.cfg.nb) :
      BusyStep s (complete 0x8 .ok
        { emit (.summary s.byteIdx v d.value d.fe d.pe e) s with byteIdx := s.byteIdx + 1 })

theorem busyStep_of_phaseStep {s t : State} (h : phaseStep s = .next t) : BusyStep s t := by
  rcases phaseStep_eq_next h with
    ⟨hp, hr, rfl⟩ | ⟨hp, hr, rfl⟩ | ⟨hp, htx⟩ | ⟨hp, hrx⟩ | ⟨hp, ha, rfl⟩ | ⟨hp, v, ha, hv, rfl⟩ | ⟨hp, v, hv, rfl⟩ |
    ⟨hp, hr, rfl⟩ | ⟨hp, hr, rfl⟩ | ⟨hp, htx⟩ | ⟨hp, wire, hwire, rfl⟩ | ⟨hp, hrx⟩ | ⟨hp, seq, hseq, hd, rfl⟩ |
    ⟨hp, seq, d, hseq, hd, rfl⟩ | ⟨hp, d, v, e, _, hd, hv, he, rfl, ⟨hmore, rfl⟩ | ⟨hlast, rfl⟩⟩
  · exact .ready hp hr
  · exact .held (.inl ⟨.inl hp, hr⟩)
  · obtain ⟨hi, ha, rfl⟩ | ⟨buf, w, hw, rfl⟩ := bitSent_of_txBitStep htx
    · exact .held (.inr ⟨.inr ⟨.inl hp, hi⟩, ha⟩)
    · split
      next hlast => exact .lastBitSent hp hw hlast
      next hmore => exact .bitSent (.inl hp) hw hmore
  · obtain ⟨buf, w, hw, rfl⟩ := bitReceived_of_rxBitStep hrx
    split
    next hlast => exact .lastBitReceived hp hw hlast
    next hmore => exact .bitReceived (.inl hp) hw hmore
  · exact .held (.inr ⟨.inl hp, ha⟩)
  · exact .payloadDrawn hp ha hv
  · exact .frameEncoded hp hv
  · exact .sendBegun hp hr
  · exact .held (.inl ⟨.inr hp, hr⟩)
  · obtain ⟨hi, ha, rfl⟩ | ⟨buf, w, hw, rfl⟩ := bitSent_of_txBitStep htx
    · exact .held (.inr ⟨.inr ⟨.inr hp, hi⟩, ha⟩)
    · split
      next hlast => exact .frameSent hp hw hlast
      next hmore => exact .bitSent (.inr hp) hw hmore
  · exact .receiveBegun hp hwire
  · obtain ⟨buf, w, hw, rfl⟩ := bitReceived_of_rxBitStep hrx
    split
    next hlast => exact .frameReceived hp hw hlast
    next hmore => exact .bitReceived (.inr hp) hw hmore
  · exact .malformed hp hseq hd
  · exact .decoded hp hseq hd
  · exact .nextByte hp hd hv he hmore
  · exact .lastByte hp hd hv he hlast

/-- One step of the block, case by case (70 R250, R253, R261; 10 R26; 30 R82). -/
inductive BlockStep (s : State) : State → Prop
  | reset (hrst : s.pins.rst = true) : BlockStep s (resetBlock s)
  | busy {t : State} (hrst : s.pins.rst = false) (hbusy : s.busy = true) (ht : BusyStep s t) : BlockStep s t
  | accepted {i : Instr} {t : State} (hrst : s.pins.rst = false) (hidle : s.busy = false)
      (hoffer : s.pins.cmdValid = true) (hop : decode s.pins.cmdOp = .ok i) (ht : AcceptStep s i t) : BlockStep s t
  | reserved (hrst : s.pins.rst = false) (hidle : s.busy = false) (hoffer : s.pins.cmdValid = true) :
      BlockStep s (complete s.pins.cmdOp .illegalCommand s)
  | waited (hrst : s.pins.rst = false) (hidle : s.busy = false) (hoffer : s.pins.cmdValid = false) : BlockStep s s

/-- A step of the machine is a step of the block, after which the ports move on. -/
theorem blockStep_of_step {s t : State} (h : step s = .next t) : ∃ s', BlockStep s s' ∧ t = tick s' := by
  obtain ⟨s', hs', rfl⟩ := step_eq_next.mp h
  refine ⟨s', ?_, rfl⟩
  rcases blockStep_cases (s := s) with
    ⟨hrst, hb⟩ | ⟨hrst, hbusy, hb⟩ | ⟨hrst, hidle, hoffer, ⟨i, hop, hb⟩ | ⟨e, -, hb⟩⟩ | ⟨hrst, hidle, hoffer, hb⟩
    <;> rw [hb] at hs'
  · cases hs'; exact .reset hrst
  · exact .busy hrst hbusy (busyStep_of_phaseStep hs')
  · exact .accepted hrst hidle hoffer hop (acceptStep_of_exec hs')
  · cases hs'; exact .reserved hrst hidle hoffer
  · cases hs'; exact .waited hrst hidle hoffer

end Sys2Proof.Machine
end

section
namespace Sys2Proof.Machine

/-! ### What steps leave alone -/

section
variable {i : Instr} {s t : State}

/-- A command is accepted without touching RDY, EV, the draws or the ports (10 R23, R33). -/
theorem AcceptStep.frame (h : AcceptStep s i t) :
    t.rdy = s.rdy ∧ t.ev = s.ev ∧ t.rndTaken = s.rndTaken ∧ t.pins = s.pins ∧ t.script = s.script := by
  cases h <;> simp

/-- CONFIGURE alone writes CFG and CFG_VALID at its acceptance (43 R205). -/
theorem AcceptStep.cfg_eq (h : AcceptStep s i t) (hi : i ≠ .configure) :
    t.cfg = s.cfg ∧ t.cfgValid = s.cfgValid := by
  cases h with
  | configured | configRefused => exact absurd rfl hi
  | _ => exact ⟨rfl, rfl⟩

theorem BusyStep.ports_eq (h : BusyStep s t) : t.pins = s.pins ∧ t.script = s.script := by
  cases h with
  | bitSent _ hw | lastBitSent _ hw | frameSent _ hw => cases hw; exact ⟨rfl, rfl⟩
  | bitReceived _ hw | lastBitReceived _ hw | frameReceived _ hw => cases hw; exact ⟨rfl, rfl⟩
  | _ => exact ⟨rfl, rfl⟩

/-- No step of the block moves the ports; `tick` does (log 2). -/
theorem BlockStep.ports_eq (h : BlockStep s t) : t.pins = s.pins ∧ t.script = s.script := by
  cases h with
  | busy _ _ ht => exact ht.ports_eq
  | accepted _ _ _ _ ht =>
    obtain ⟨-, -, -, hpins, hscript⟩ := ht.frame
    exact ⟨hpins, hscript⟩
  | reset | reserved | waited => exact ⟨rfl, rfl⟩

/-- 10 R23: a command in progress writes RDY in R_RXBEGIN and in R_DECODE. -/
theorem BusyStep.rdy_eq (h : BusyStep s t) :
    t.rdy = s.rdy ∨ (s.phase = .rRxBegin ∧ t.rdy = false) ∨ (s.phase = .rDecode ∧ t.rdy = true) := by
  cases h with
  | receiveBegun hp => exact .inr (.inl ⟨hp, rfl⟩)
  | malformed hp | decoded hp => exact .inr (.inr ⟨hp, rfl⟩)
  | bitSent _ hw | lastBitSent _ hw | frameSent _ hw => cases hw; exact .inl rfl
  | bitReceived _ hw | lastBitReceived _ hw | frameReceived _ hw => cases hw; exact .inl rfl
  | _ => exact .inl rfl

/-- Settles O41: no acceptance writes RDY, and a command in progress does so in two phases only. -/
theorem onlyTwoPhasesWriteRdy : Obligations.OnlyTwoPhasesWriteRdy := by
  intro s t hrst h hne
  obtain ⟨s', hs', rfl⟩ := blockStep_of_step h
  cases hs' with
  | reset hrst' => simp [hrst] at hrst'
  | busy _ hbusy ht => exact ⟨hbusy, ht.rdy_eq.resolve_left hne⟩
  | accepted _ _ _ _ ht =>
    obtain ⟨hrdy, -⟩ := ht.frame
    exact absurd hrdy hne
  | reserved | waited => exact absurd rfl hne

/-- The histories of `s` begin those of `t`: EV, CL and the consumed answers (10 R33, 60 R232, 20 R55). -/
def HistoriesGrow (s t : State) : Prop := s.ev <+: t.ev ∧ s.cl <+: t.cl ∧ s.rndTaken <+: t.rndTaken

theorem AcceptStep.historiesGrow (h : AcceptStep s i t) : HistoriesGrow s t := by
  cases h <;> simp [HistoriesGrow]

theorem BusyStep.historiesGrow (h : BusyStep s t) : HistoriesGrow s t := by
  cases h with
  | bitSent _ hw | lastBitSent _ hw | frameSent _ hw => cases hw; simp [HistoriesGrow]
  | bitReceived _ hw | lastBitReceived _ hw | frameReceived _ hw => cases hw; simp [HistoriesGrow]
  | _ => simp [HistoriesGrow]

/-- Settles O54: every write to a history appends to it, and reset keeps all three. -/
theorem historiesOnlyGrow : Obligations.HistoriesOnlyGrow := by
  intro s t h
  obtain ⟨s', hs', rfl⟩ := blockStep_of_step h
  cases hs' with
  | busy _ _ ht => exact ht.historiesGrow
  | accepted _ _ _ _ ht => exact ht.historiesGrow
  | reset | reserved | waited => simp

/-- The opcode map read backwards (30 R81): a word that decodes to `i` is the op code of `i`. -/
theorem eq_encode_of_decode {op : OpCode} (h : decode op = .ok i) : op = encode i := by
  unfold decode at h
  split at h
  case h_9 => cases h
  all_goals
    rename_i hop
    cases h
    exact BitVec.eq_of_toNat_eq hop

/-- The frame of a command in progress (10 R29 to R32, 43 R205). -/
theorem BusyStep.frame (h : BusyStep s t) :
    t.cfg = s.cfg ∧ t.cfgValid = s.cfgValid ∧ t.parOut = s.parOut ∧
    (s.phase ≠ .rDecode → t.decOut = s.decOut) ∧
    (s.phase ≠ .rEncode → t.encOut = s.encOut ∧ t.txBuf = s.txBuf) ∧
    (s.phase ≠ .rRxBegin → t.rxBuf = s.rxBuf) ∧
    (s.phase ≠ .rDraw → t.curValue = s.curValue) ∧
    (s.phase ≠ .tx → s.phase ≠ .rTx → s.phase ≠ .rPoll → t.txWire = s.txWire ∧ t.txTrace = s.txTrace) ∧
    (s.phase ≠ .rx → s.phase ≠ .rRx → s.phase ≠ .rRxBegin → t.rxSeq = s.rxSeq) ∧
    (s.phase ≠ .rx → s.phase ≠ .rRx → t.rxElapsed = s.rxElapsed ∧ t.elapsedDraws = s.elapsedDraws) ∧
    (s.phase ≠ .rReport → t.byteIdx = s.byteIdx) := by
  cases h with
  | held => simp
  | bitSent hp hw => cases hw; rcases hp with hp | hp <;> simp [hp]
  | bitReceived hp hw => cases hw; rcases hp with hp | hp <;> simp [hp]
  | lastBitSent hp hw | frameSent hp hw => cases hw; simp [hp]
  | lastBitReceived hp hw | frameReceived hp hw => cases hw; simp [hp]
  | ready hp | payloadDrawn hp | frameEncoded hp | sendBegun hp | receiveBegun hp | malformed hp | decoded hp
  | nextByte hp | lastByte hp => simp [hp]

/-- Settles O59: a step of a busy block without reset is the step of its command, whose frame is `BusyStep.frame`. -/
theorem commandsInProgressWriteOnlyTheirRegisters : Obligations.CommandsInProgressWriteOnlyTheirRegisters := by
  intro s t hrst hbusy h
  obtain ⟨s', hs', rfl⟩ := blockStep_of_step h
  cases hs' with
  | reset hrst' => simp [hrst] at hrst'
  | busy _ _ ht => exact ht.frame
  | accepted _ hidle | reserved _ hidle | waited _ hidle => simp [hbusy] at hidle

/-- Settles O55: the frames of the other steps keep CFG and CFG_VALID, and 0x1 is the only op code of CONFIGURE. -/
theorem onlyConfigureAndResetWriteCfg : Obligations.OnlyConfigureAndResetWriteCfg := by
  intro s t h hne
  obtain ⟨s', hs', rfl⟩ := blockStep_of_step h
  cases hs' with
  | reset hrst => exact .inl hrst
  | busy _ _ ht =>
    obtain ⟨hcfg, hvalid, -⟩ := ht.frame
    simp [hcfg, hvalid] at hne
  | @accepted i _ _ hidle hoffer hop ht =>
    refine .inr ⟨hidle, hoffer, ?_⟩
    by_cases hi : i = .configure
    · subst hi; exact eq_encode_of_decode hop
    · simp [ht.cfg_eq hi] at hne
  | reserved | waited => simp at hne

/-- STATUS and CL are kept, or a completion writes the one, logs it in the other and leaves the block idle (10 R25,
60 R221, R232). -/
def StatusKeptOrCompleted (s t : State) : Prop :=
  (t.status = s.status ∧ t.cl = s.cl) ∨
    ∃ op, t.cl = s.cl ++ [(op, t.status)] ∧ t.busy = false ∧ t.cmd = none ∧ t.phase = .idle

theorem statusKeptOrCompleted_complete {w : State} (op : OpCode) (st : Status) (hcl : w.cl = s.cl) :
    StatusKeptOrCompleted s (complete op st w) :=
  .inr ⟨op, by simp [hcl]⟩

theorem AcceptStep.statusKeptOrCompleted (h : AcceptStep s i t) : StatusKeptOrCompleted s t := by
  cases h with
  | transmitBegun | receiveBegun | waitBegun | runBegun => exact .inl ⟨rfl, rfl⟩
  | _ => exact statusKeptOrCompleted_complete _ _ rfl

theorem BusyStep.statusKeptOrCompleted (h : BusyStep s t) : StatusKeptOrCompleted s t := by
  cases h with
  | ready | malformed | lastByte => exact statusKeptOrCompleted_complete _ _ rfl
  | lastBitSent _ hw => cases hw; exact statusKeptOrCompleted_complete _ _ rfl
  | lastBitReceived _ hw => cases hw; exact statusKeptOrCompleted_complete _ _ rfl
  | bitSent _ hw | frameSent _ hw => cases hw; exact .inl ⟨rfl, rfl⟩
  | bitReceived _ hw | frameReceived _ hw => cases hw; exact .inl ⟨rfl, rfl⟩
  | _ => exact .inl ⟨rfl, rfl⟩

/-- Settles O56: `complete` is the only write to STATUS and to CL besides reset. -/
theorem statusIsWrittenByCompletionsOnly : Obligations.StatusIsWrittenByCompletionsOnly := by
  intro s t hrst h
  obtain ⟨s', hs', rfl⟩ := blockStep_of_step h
  cases hs' with
  | reset hrst' => simp [hrst] at hrst'
  | busy _ _ ht => exact ht.statusKeptOrCompleted
  | accepted _ _ _ _ ht => exact ht.statusKeptOrCompleted
  | reserved => exact statusKeptOrCompleted_complete _ _ rfl
  | waited => exact .inl ⟨rfl, rfl⟩

/-- 10 R33: a command in progress emits one BitEvent per bit sent and one FrameSummary per byte reported. -/
theorem BusyStep.ev_eq (h : BusyStep s t) :
    t.ev = s.ev ∨ ((s.phase = .tx ∨ s.phase = .rTx) ∧ ∃ w, t.ev = s.ev ++ [.bit s.bitIdx w]) ∨
      (s.phase = .rReport ∧ ∃ v r fe pe e, t.ev = s.ev ++ [.summary s.byteIdx v r fe pe e]) := by
  cases h with
  | bitSent hp hw => cases hw; exact .inr (.inl ⟨hp, _, rfl⟩)
  | lastBitSent hp hw => cases hw; exact .inr (.inl ⟨.inl hp, _, rfl⟩)
  | frameSent hp hw => cases hw; exact .inr (.inl ⟨.inr hp, _, rfl⟩)
  | nextByte hp | lastByte hp => exact .inr (.inr ⟨hp, _, _, _, _, _, rfl⟩)
  | bitReceived _ hw | lastBitReceived _ hw | frameReceived _ hw => cases hw; exact .inl rfl
  | _ => exact .inl rfl

/-- Settles O57: acceptance and reset emit nothing, and `BusyStep.ev_eq` names the events of a command in progress. -/
theorem eventsComeFromTransmitAndReportSteps : Obligations.EventsComeFromTransmitAndReportSteps := by
  intro s t h hne
  obtain ⟨s', hs', rfl⟩ := blockStep_of_step h
  cases hs' with
  | busy hrst hbusy ht => exact ⟨hrst, hbusy, ht.ev_eq.resolve_left hne⟩
  | accepted _ _ _ _ ht =>
    obtain ⟨-, hev, -⟩ := ht.frame
    exact absurd hev hne
  | reset | reserved | waited => exact absurd rfl hne

end

/-- Settles O3: with no reset, BUSY = 0 and an offer that decodes, the step of the block is `exec`. -/
theorem stepRunsTheAcceptedCommand : Obligations.StepRunsTheAcceptedCommand := by
  intro s i hrst hidle hoffer hop _
  have hb : blockStep s = exec i s := by simp [blockStep, acceptOffer, hrst, hidle, hoffer, hop]
  rw [step, hb]
  cases exec i s <;> rfl

end Sys2Proof.Machine
end

section
namespace Sys2Proof.Machine

/-! ### The invariant -/

section
variable {i : Instr} {s t w : State} {buf : BitSeq}

theorem cfgLegal_default : CfgLegal Cfg.default := by
  refine ⟨by decide, ?_, by decide, ?_, ?_⟩
  · simp [Cfg.default, Config.maxDataBits]
  · norm_num [Cfg.default]
  · norm_num [Cfg.default]

/-- What CONFIGURE latches is legal (43 R202). -/
theorem cfgLegal_of_latchOf {c : CfgIn} {c' : Cfg} (h : latchOf c = some c') : CfgLegal c' := by
  unfold latchOf at h
  split at h
  next hok =>
    obtain ⟨pm, -, rfl⟩ := Option.map_eq_some_iff.mp h
    simp only [cfgOk, Bool.and_eq_true, decide_eq_true_eq] at hok
    obtain ⟨⟨⟨⟨⟨hw, hmax⟩, -⟩, hbaud⟩, hprob⟩, hone⟩ := hok
    exact ⟨hw, hmax, hbaud, hprob, hone⟩
  next => cases h

theorem elapsedNow_nonneg (s : State) : 0 ≤ elapsedNow s := NNRat.cast_nonneg _

theorem Phase.owner_eq_none {p : Phase} : p.owner = none ↔ p = .idle := by
  cases p <;> simp [Phase.owner]

/-- The ports play no part in the invariant. -/
theorem StateInv.tick (h : StateInv s) : StateInv (tick s) := { h with }

theorem stateInv_of_idle (hcfg : CfgLegal s.cfg) (hbusy : s.busy = false) (hcmd : s.cmd = none)
    (hphase : s.phase = .idle) (hrdy : s.rdy = true) (he : ∀ e, s.rxElapsed = some e → 0 ≤ e) : StateInv s where
  cfg_legal := hcfg
  idle_iff := by simp [hbusy, hcmd, hphase]
  cmd_of_phase := by simp [hcmd, hphase, Phase.owner]
  rdy_iff := by simp [hrdy, hphase]
  valid_of_busy := absurd hphase
  byte_of_run := by simp [hcmd]
  elapsed_nonneg := he
  phase_inv := by simp [PhaseInv, hphase]

/-- A completion needs no more than a legal CFG, RDY = 1 and a valid RX_ELAPSED to establish the invariant. -/
theorem stateInv_complete (op : OpCode) (st : Status) (hcfg : CfgLegal w.cfg) (hrdy : w.rdy = true)
    (he : ∀ e, w.rxElapsed = some e → 0 ≤ e) : StateInv (complete op st w) :=
  stateInv_of_idle hcfg rfl rfl rfl hrdy he

theorem StateInv.phase_eq_idle (h : StateInv s) (hbusy : s.busy = false) : s.phase = .idle :=
  (h.idle_iff.mp hbusy).1

theorem StateInv.cmd_eq_none (h : StateInv s) (hbusy : s.busy = false) : s.cmd = none := (h.idle_iff.mp hbusy).2

/-- The receiver is idle in every phase but R_RX and R_DECODE (10 R39(b)). -/
theorem StateInv.rdy_eq_true (h : StateInv s) (hrx : s.phase ≠ .rRx) (hdec : s.phase ≠ .rDecode) : s.rdy = true := by
  have hrdy : ¬ s.rdy = false := fun hr => (h.rdy_iff.mp hr).elim hrx hdec
  simpa using hrdy

theorem StateInv.rdy_of_idle (h : StateInv s) (hbusy : s.busy = false) : s.rdy = true :=
  h.rdy_eq_true (by simp [h.phase_eq_idle hbusy]) (by simp [h.phase_eq_idle hbusy])

theorem StateInv.phase_ne_idle (h : StateInv s) (hbusy : s.busy = true) : s.phase ≠ .idle := by
  intro hp
  have hcmd : s.cmd = none := by simp [h.cmd_of_phase, hp, Phase.owner]
  simp [h.idle_iff.mpr ⟨hp, hcmd⟩] at hbusy

theorem stateInv_of_busy (hcfg : CfgLegal t.cfg) (hvalid : t.cfgValid = true) (hbusy : t.busy = true)
    (hphase : t.phase ≠ .idle) (hcmd : t.cmd = t.phase.owner)
    (hrdy : t.rdy = false ↔ t.phase = .rRx ∨ t.phase = .rDecode)
    (hbyte : t.cmd = some .run → t.byteIdx < t.cfg.nb) (he : ∀ e, t.rxElapsed = some e → 0 ≤ e)
    (hinv : PhaseInv t) : StateInv t where
  cfg_legal := hcfg
  idle_iff := by simp [hbusy, hphase]
  cmd_of_phase := hcmd
  rdy_iff := hrdy
  valid_of_busy _ := hvalid
  byte_of_run := hbyte
  elapsed_nonneg := he
  phase_inv := hinv

/-- `t` is a later state of the command in progress in `s`, at the same configuration. -/
structure SameCommand (s t : State) : Prop where
  cfg : t.cfg = s.cfg
  cfgValid : t.cfgValid = s.cfgValid
  busy : t.busy = s.busy
  cmd : t.cmd = s.cmd
  owner : t.phase.owner = s.phase.owner

/-- Inside a command the invariant is left to RDY, BYTE_IDX, RX_ELAPSED and what the new phase needs. -/
theorem StateInv.of_sameCommand (h : StateInv s) (hbusy : s.busy = true) (hsame : SameCommand s t)
    (hrdy : t.rdy = false ↔ t.phase = .rRx ∨ t.phase = .rDecode)
    (hbyte : t.cmd = some .run → t.byteIdx < t.cfg.nb) (he : ∀ e, t.rxElapsed = some e → 0 ≤ e)
    (hinv : PhaseInv t) : StateInv t := by
  have hphase : s.phase ≠ .idle := h.phase_ne_idle hbusy
  obtain ⟨hcfg, hvalid, hb, hcmd, howner⟩ := hsame
  refine stateInv_of_busy (hcfg ▸ h.cfg_legal) (hvalid.trans (h.valid_of_busy hphase)) (hb.trans hbusy) ?_ ?_
    hrdy hbyte he hinv
  · rwa [Ne, ← Phase.owner_eq_none, howner, Phase.owner_eq_none]
  · rw [hcmd, h.cmd_of_phase, howner]

/-! #### What each phase needs -/

/-- After one more bit the wire and the trace are one entry longer (41 R131). -/
theorem BitSent.lengths (hw : BitSent s buf w) (h : Sending s) :
    s.bitIdx < buf.length ∧ w.bitIdx = s.bitIdx + 1 ∧ w.txBuf = some buf ∧
      ∃ wire trace, w.txWire = some wire ∧ w.txTrace = some trace ∧
        wire.length = s.bitIdx + 1 ∧ trace.length = s.bitIdx + 1 := by
  obtain ⟨buf', wire', trace', hbuf', hwire', htrace', hwl, htl, hlt⟩ := h
  cases hw with
  | mk hbuf hwire htrace =>
    simp only [hbuf, hwire, htrace, Option.some.injEq] at hbuf' hwire' htrace'
    subst hbuf' hwire' htrace'
    exact ⟨hlt, rfl, hbuf, _, _, rfl, rfl, by simp [hwl], by simp [htl]⟩

/-- A bit step that is not the last one leaves the next one ready (10 R39(d)). -/
theorem BitSent.sending (hw : BitSent s buf w) (h : Sending s) (hmore : s.bitIdx + 1 ≠ buf.length) : Sending w := by
  obtain ⟨hlt, hidx, hbuf, wire, trace, hwire, htrace, hwl, htl⟩ := hw.lengths h
  exact ⟨buf, wire, trace, hbuf, hwire, htrace, by omega, by omega, by omega⟩

/-- After one more bit RX_SEQ is the part of the buffer read so far (41 R141). -/
theorem BitReceived.copied (hw : BitReceived s buf w) (h : Receiving s) :
    s.bitIdx < buf.length ∧ w.bitIdx = s.bitIdx + 1 ∧ w.rxBuf = some buf ∧
      w.rxSeq = some (buf.take (s.bitIdx + 1)) := by
  obtain ⟨buf', hbuf', hseq', hlt⟩ := h
  cases hw with
  | mk hbuf hseq hbit =>
    simp only [hbuf, hseq, Option.some.injEq] at hbuf' hseq'
    subst hbuf' hseq'
    exact ⟨hlt, rfl, hbuf, by simp [List.take_add_one, hbit]⟩

theorem BitReceived.receiving (hw : BitReceived s buf w) (h : Receiving s) (hmore : s.bitIdx + 1 ≠ buf.length) :
    Receiving w := by
  obtain ⟨hlt, hidx, hbuf, hseq⟩ := hw.copied h
  exact ⟨buf, hbuf, hidx ▸ hseq, by omega⟩

/-- The last received bit completes the copy (41 R142). -/
theorem BitReceived.rxSeq_of_last (hw : BitReceived s buf w) (h : Receiving s) (hlast : s.bitIdx + 1 = buf.length) :
    w.rxSeq = some buf := by
  obtain ⟨-, -, -, hseq⟩ := hw.copied h
  simpa [hlast] using hseq

theorem phaseInv_tx (hp : s.phase = .tx) : PhaseInv s ↔ Sending s := by simp [PhaseInv, hp]

theorem phaseInv_rTx (hp : s.phase = .rTx) : PhaseInv s ↔ Sending s ∧ ∃ v, Framed s v := by simp [PhaseInv, hp]

theorem phaseInv_rx (hp : s.phase = .rx) : PhaseInv s ↔ Receiving s := by simp [PhaseInv, hp]

theorem phaseInv_rRx (hp : s.phase = .rRx) :
    PhaseInv s ↔ Receiving s ∧ ∃ v wire, Framed s v ∧ Sent s wire ∧ s.rxBuf = some wire := by simp [PhaseInv, hp]

theorem StateInv.sending (h : StateInv s) (hp : s.phase = .tx ∨ s.phase = .rTx) : Sending s := by
  rcases hp with hp | hp
  · exact (phaseInv_tx hp).mp h.phase_inv
  · exact ((phaseInv_rTx hp).mp h.phase_inv).1

theorem StateInv.receiving (h : StateInv s) (hp : s.phase = .rx ∨ s.phase = .rRx) : Receiving s := by
  rcases hp with hp | hp
  · exact (phaseInv_rx hp).mp h.phase_inv
  · exact ((phaseInv_rRx hp).mp h.phase_inv).1

/-- PHASE = POLL is unreachable (42 R162). -/
theorem StateInv.phase_ne_poll (h : StateInv s) : s.phase ≠ .poll := by
  intro hp
  simpa [PhaseInv, hp] using h.phase_inv

/-! #### Bit steps -/

/-- A transmit bit step but the last keeps the invariant (41 R131). -/
theorem BitSent.stateInv (hw : BitSent s buf w) (h : StateInv s) (hbusy : s.busy = true)
    (hp : s.phase = .tx ∨ s.phase = .rTx) (hmore : s.bitIdx + 1 ≠ buf.length) : StateInv w := by
  have hsend : Sending w := hw.sending (h.sending hp) hmore
  cases hw
  refine h.of_sameCommand hbusy ⟨rfl, rfl, rfl, rfl, rfl⟩ h.rdy_iff h.byte_of_run h.elapsed_nonneg ?_
  rcases hp with hp | hp
  · exact (phaseInv_tx (by exact hp)).mpr hsend
  · obtain ⟨-, v, hframed⟩ := (phaseInv_rTx hp).mp h.phase_inv
    exact (phaseInv_rTx (by exact hp)).mpr ⟨hsend, v, hframed⟩

/-- A receive bit step but the last keeps the invariant (41 R141). -/
theorem BitReceived.stateInv (hw : BitReceived s buf w) (h : StateInv s) (hbusy : s.busy = true)
    (hp : s.phase = .rx ∨ s.phase = .rRx) (hmore : s.bitIdx + 1 ≠ buf.length) : StateInv w := by
  have hrecv : Receiving w := hw.receiving (h.receiving hp) hmore
  cases hw
  refine h.of_sameCommand hbusy ⟨rfl, rfl, rfl, rfl, rfl⟩ h.rdy_iff h.byte_of_run h.elapsed_nonneg ?_
  rcases hp with hp | hp
  · exact (phaseInv_rx (by exact hp)).mpr hrecv
  · obtain ⟨-, hsent⟩ := (phaseInv_rRx hp).mp h.phase_inv
    exact (phaseInv_rRx (by exact hp)).mpr ⟨hrecv, hsent⟩

/-- The last bit of a byte's frame completes its wire sequence (42 R169). -/
theorem BitSent.stateInv_frameSent (hw : BitSent s buf w) (h : StateInv s) (hbusy : s.busy = true)
    (hp : s.phase = .rTx) (hlast : s.bitIdx + 1 = buf.length) : StateInv (goto .rRxBegin w) := by
  obtain ⟨hsend, v, hframed⟩ := (phaseInv_rTx hp).mp h.phase_inv
  obtain ⟨-, -, hbuf, wire, -, hwire, -, hwl, -⟩ := hw.lengths hsend
  have hrdy : s.rdy = true := h.rdy_eq_true (by simp [hp]) (by simp [hp])
  cases hw
  have hlen : wire.length = s.frameBits := by
    obtain ⟨-, -, hframe⟩ := hframed
    have hb : buf = encodeFrame v s.cfg.w s.cfg.pm := Option.some.inj (hbuf.symm.trans hframe)
    simp [hwl, hlast, hb, State.frameBits]
  exact h.of_sameCommand hbusy ⟨rfl, rfl, rfl, rfl, by simp [hp, Phase.owner]⟩ (by simp [hrdy]) h.byte_of_run
    h.elapsed_nonneg ⟨v, wire, hframed, hwire, hlen⟩

/-- The last received bit of a byte completes RX_SEQ and draws RX_ELAPSED (42 R171). -/
theorem BitReceived.stateInv_frameReceived (hw : BitReceived s buf w) (h : StateInv s) (hbusy : s.busy = true)
    (hp : s.phase = .rRx) (hlast : s.bitIdx + 1 = buf.length) : StateInv (goto .rDecode (drawElapsed w)) := by
  obtain ⟨hrecv, v, wire, hframed, hsent, hbuf'⟩ := (phaseInv_rRx hp).mp h.phase_inv
  obtain ⟨-, -, hbuf, -⟩ := hw.copied hrecv
  have hseq : w.rxSeq = some buf := hw.rxSeq_of_last hrecv hlast
  have hrdy : s.rdy = false := h.rdy_iff.mpr (.inl hp)
  cases hw
  obtain rfl : buf = wire := Option.some.inj (hbuf.symm.trans hbuf')
  exact h.of_sameCommand hbusy ⟨rfl, rfl, rfl, rfl, by simp [hp, Phase.owner]⟩ (by simp [hrdy]) h.byte_of_run
    (by simp [elapsedNow_nonneg]) ⟨v, buf, _, hframed, hsent, hbuf, hseq, rfl⟩

/-! #### Every step keeps the invariant -/

/-- 30 R71: a frame is never empty. -/
theorem frameLength_pos (W : Nat) (pm : ParityMode) : 0 < frameLength W pm := by
  unfold frameLength; omega

theorem AcceptStep.stateInv (ht : AcceptStep s i t) (h : StateInv s) (hidle : s.busy = false) : StateInv t := by
  have hcfg : CfgLegal s.cfg := h.cfg_legal
  have hrdy : s.rdy = true := h.rdy_of_idle hidle
  have he : ∀ e, s.rxElapsed = some e → 0 ≤ e := h.elapsed_nonneg
  cases ht with
  | configured hc => exact stateInv_complete _ _ (cfgLegal_of_latchOf hc) hrdy he
  | configRefused | unconfigured | encoded | malformed | decoded | parityTaken | sentNothing | ready | ranNothing =>
    exact stateInv_complete _ _ hcfg hrdy he
  | receivedNothing => exact stateInv_complete _ _ hcfg hrdy (by simp [elapsedNow_nonneg])
  | waitBegun hr => simp [hrdy] at hr
  | transmitBegun hv hlen =>
    exact stateInv_of_busy hcfg hv rfl (by simp) rfl (by simp [hrdy]) (by simp) he
      ⟨_, _, _, rfl, rfl, rfl, rfl, rfl, Nat.pos_of_ne_zero hlen⟩
  | receiveBegun hv hlen =>
    exact stateInv_of_busy hcfg hv rfl (by simp) rfl (by simp [hrdy]) (by simp) he
      ⟨_, rfl, rfl, Nat.pos_of_ne_zero hlen⟩
  | runBegun hv hn =>
    exact stateInv_of_busy hcfg hv rfl (by simp) rfl (by simp [hrdy]) (fun _ => Nat.pos_of_ne_zero hn) he trivial

theorem BusyStep.stateInv (ht : BusyStep s t) (h : StateInv s) (hbusy : s.busy = true) : StateInv t := by
  have hcfg : CfgLegal s.cfg := h.cfg_legal
  have he : ∀ e, s.rxElapsed = some e → 0 ≤ e := h.elapsed_nonneg
  have hinv : PhaseInv s := h.phase_inv
  cases ht with
  | held => exact h
  | ready hp => exact absurd hp h.phase_ne_poll
  | bitSent hp hw hmore => exact hw.stateInv h hbusy hp hmore
  | bitReceived hp hw hmore => exact hw.stateInv h hbusy hp hmore
  | frameSent hp hw hlast => exact hw.stateInv_frameSent h hbusy hp hlast
  | frameReceived hp hw hlast => exact hw.stateInv_frameReceived h hbusy hp hlast
  | lastBitSent hp hw =>
    have hrdy : s.rdy = true := h.rdy_eq_true (by simp [hp]) (by simp [hp])
    cases hw
    exact stateInv_complete _ _ hcfg hrdy he
  | lastBitReceived hp hw =>
    have hrdy : s.rdy = true := h.rdy_eq_true (by simp [hp]) (by simp [hp])
    cases hw
    exact stateInv_complete _ _ hcfg hrdy (by simp [elapsedNow_nonneg])
  | payloadDrawn hp _ hv =>
    have hrdy : s.rdy = true := h.rdy_eq_true (by simp [hp]) (by simp [hp])
    exact h.of_sameCommand hbusy ⟨rfl, rfl, rfl, rfl, by simp [hp, Phase.owner]⟩ (by simp [hrdy]) h.byte_of_run he
      ⟨_, rfl, hv⟩
  | frameEncoded hp hv =>
    have hrdy : s.rdy = true := h.rdy_eq_true (by simp [hp]) (by simp [hp])
    simp only [PhaseInv, hp] at hinv
    obtain ⟨v', hcur, hlt⟩ := hinv
    obtain rfl : _ = v' := Option.some.inj (hv.symm.trans hcur)
    exact h.of_sameCommand hbusy ⟨rfl, rfl, rfl, rfl, by simp [hp, Phase.owner]⟩ (by simp [hrdy]) h.byte_of_run he
      ⟨_, ⟨hcur, hlt⟩, rfl, rfl⟩
  | sendBegun hp hr =>
    simp only [PhaseInv, hp] at hinv
    obtain ⟨v, hdrawn, henc, hbuf⟩ := hinv
    have hsend : 0 < (encodeFrame v s.cfg.w s.cfg.pm).length := by simp [frameLength_pos]
    exact h.of_sameCommand hbusy ⟨rfl, rfl, rfl, rfl, by simp [hp, Phase.owner]⟩ (by simp [hr]) h.byte_of_run he
      ⟨⟨_, _, _, hbuf, rfl, rfl, rfl, rfl, hsend⟩, v, hdrawn, henc, hbuf⟩
  | @receiveBegun wire hp hwire =>
    simp only [PhaseInv, hp] at hinv
    obtain ⟨v, wire', hframed, hwire', hlen⟩ := hinv
    obtain rfl : wire = wire' := Option.some.inj (hwire.symm.trans hwire')
    have hrecv : 0 < wire.length := hlen.symm ▸ frameLength_pos s.cfg.w s.cfg.pm
    exact h.of_sameCommand hbusy ⟨rfl, rfl, rfl, rfl, by simp [hp, Phase.owner]⟩ (by simp) h.byte_of_run he
      ⟨⟨_, rfl, rfl, hrecv⟩, v, _, hframed, ⟨hwire, hlen⟩, rfl⟩
  | malformed => exact stateInv_complete _ _ hcfg rfl he
  | decoded hp hseq hd =>
    simp only [PhaseInv, hp] at hinv
    obtain ⟨v, wire, e, hframed, hsent, hbuf, hseq', hel⟩ := hinv
    obtain rfl : _ = wire := Option.some.inj (hseq.symm.trans hseq')
    exact h.of_sameCommand hbusy ⟨rfl, rfl, rfl, rfl, by simp [hp, Phase.owner]⟩ (by simp) h.byte_of_run he
      ⟨v, _, e, _, hframed, hsent, hseq, hel, rfl, hd⟩
  | nextByte hp _ _ _ hmore =>
    have hrdy : s.rdy = true := h.rdy_eq_true (by simp [hp]) (by simp [hp])
    exact h.of_sameCommand hbusy ⟨rfl, rfl, rfl, rfl, by simp [hp, Phase.owner]⟩ (by simp [hrdy]) (fun _ => hmore) he
      trivial
  | lastByte hp =>
    have hrdy : s.rdy = true := h.rdy_eq_true (by simp [hp]) (by simp [hp])
    exact stateInv_complete _ _ hcfg hrdy he

theorem BlockStep.stateInv (ht : BlockStep s t) (h : StateInv s) : StateInv t := by
  cases ht with
  | reset => exact stateInv_of_idle cfgLegal_default rfl rfl rfl rfl (by simp)
  | busy _ hbusy ht => exact ht.stateInv h hbusy
  | accepted _ hidle _ _ ht => exact ht.stateInv h hidle
  | reserved _ hidle => exact stateInv_complete _ _ h.cfg_legal (h.rdy_of_idle hidle) h.elapsed_nonneg
  | waited => exact h

end

/-- Settles O48: a reset restores the invariant, an acceptance establishes what its first phase needs, and each phase
leaves what the next one needs. -/
theorem everyStepKeepsTheInvariant : Obligations.EveryStepKeepsTheInvariant := by
  intro s t h hstep
  obtain ⟨s', hs', rfl⟩ := blockStep_of_step hstep
  exact (hs'.stateInv h).tick

end Sys2Proof.Machine
end

section
namespace Sys2Proof.Machine

/-! ### The capacity of the buffers -/

section
variable {i : Instr} {s t w : State} {buf : BitSeq}

@[simp] theorem seqFits_none : SeqFits none := by simp [SeqFits]

@[simp] theorem seqFits_some : SeqFits (some buf) ↔ buf.length ≤ Config.maxFrameBits := by simp [SeqFits]

/-- A frame of a legal configuration is within MAX_FRAME_BITS (00 R8, R9). -/
theorem seqFits_encodeFrame {c : Cfg} (h : CfgLegal c) (v : Nat) : SeqFits (some (encodeFrame v c.w c.pm)) := by
  obtain ⟨-, hw, -⟩ := h
  have hcount : c.pm.count ≤ 1 := by cases c.pm <;> decide
  simp only [seqFits_some, encodeFrame_length, frameLength, Config.maxFrameBits]
  omega

theorem pins_frameIn_length_le {p : Pins} (h : p.wellFormed = true) : p.frameIn.length ≤ Config.maxFrameBits := by
  simp only [Pins.wellFormed, frameWellFormed, Bool.and_eq_true, decide_eq_true_eq] at h
  obtain ⟨-, hframe⟩ := h
  exact hframe

theorem pins_quiet_wellFormed : Pins.quiet.wellFormed = true := by
  simp [Pins.wellFormed, dinWellFormed, frameWellFormed, Pins.quiet]

/-- The next sample is the head of the script or the quiet ports, and both fit their formats (log 2). -/
theorem PinsFit.tick (h : PinsFit s) : PinsFit (tick s) := by
  obtain ⟨-, hscript⟩ := h
  cases hs : s.script with
  | nil => simp [PinsFit, hs, pins_quiet_wellFormed]
  | cons p ps => simpa [PinsFit, hs] using hscript

theorem buffersFit_resetBlock (s : State) : BuffersFit (resetBlock s) := by
  constructor <;> simp

theorem AcceptStep.buffersFit (ht : AcceptStep s i t) (hcfg : CfgLegal s.cfg) (h : BuffersFit s)
    (hpins : s.pins.wellFormed = true) : BuffersFit t := by
  have hframe : SeqFits (some s.pins.frameIn) := seqFits_some.mpr (pins_frameIn_length_le hpins)
  have hempty : SeqFits (some []) := seqFits_some.mpr (Nat.zero_le _)
  cases ht with
  | encoded => exact { h with enc := seqFits_encodeFrame hcfg _ }
  | sentNothing | transmitBegun => exact { h with txBuf := hframe, txWire := hempty, bitIdx := Nat.zero_le _ }
  | receivedNothing | receiveBegun => exact { h with rxBuf := hframe, rxSeq := hempty, bitIdx := Nat.zero_le _ }
  | _ => exact { h with }

/-- A sent bit makes the wire at most as long as the latched buffer (41 R131). -/
theorem BitSent.buffersFit (hw : BitSent s buf w) (hs : Sending s) (h : BuffersFit s) : BuffersFit w := by
  obtain ⟨hlt, hidx, hbuf, wire, -, hwire, -, hwl, -⟩ := hw.lengths hs
  have hfit : s.bitIdx + 1 ≤ Config.maxFrameBits := by
    cases hw with
    | mk hbuf => exact hlt.trans_le (h.txBuf _ hbuf)
  have hfits : SeqFits w.txWire := by simpa [hwire, hwl] using hfit
  cases hw
  exact { h with txWire := hfits, bitIdx := hfit }

/-- A received bit makes RX_SEQ at most as long as the latched buffer (41 R141). -/
theorem BitReceived.buffersFit (hw : BitReceived s buf w) (hs : Receiving s) (h : BuffersFit s) : BuffersFit w := by
  obtain ⟨hlt, hidx, hbuf, hseq⟩ := hw.copied hs
  have hfit : s.bitIdx + 1 ≤ Config.maxFrameBits := by
    cases hw with
    | mk hbuf => exact hlt.trans_le (h.rxBuf _ hbuf)
  have hfits : SeqFits w.rxSeq := by simpa [hseq] using .inl hfit
  cases hw
  exact { h with rxSeq := hfits, bitIdx := hfit }

theorem BusyStep.buffersFit (ht : BusyStep s t) (hinv : StateInv s) (h : BuffersFit s) : BuffersFit t := by
  have hempty : SeqFits (some []) := seqFits_some.mpr (Nat.zero_le _)
  cases ht with
  | bitSent hp hw => exact hw.buffersFit (hinv.sending hp) h
  | lastBitSent hp hw => exact { hw.buffersFit (hinv.sending (.inl hp)) h with }
  | frameSent hp hw => exact { hw.buffersFit (hinv.sending (.inr hp)) h with }
  | bitReceived hp hw => exact hw.buffersFit (hinv.receiving hp) h
  | lastBitReceived hp hw => exact { hw.buffersFit (hinv.receiving (.inl hp)) h with }
  | frameReceived hp hw => exact { hw.buffersFit (hinv.receiving (.inr hp)) h with }
  | frameEncoded =>
    have hframe := seqFits_encodeFrame hinv.cfg_legal
    exact { h with enc := hframe _, txBuf := hframe _ }
  | sendBegun => exact { h with txWire := hempty, bitIdx := Nat.zero_le _ }
  | receiveBegun _ hwire => exact { h with rxBuf := hwire ▸ h.txWire, rxSeq := hempty, bitIdx := Nat.zero_le _ }
  | held | ready | payloadDrawn | malformed | decoded | nextByte | lastByte => exact { h with }

theorem BlockStep.buffersFit (ht : BlockStep s t) (hinv : StateInv s) (h : BuffersFit s)
    (hpins : s.pins.wellFormed = true) : BuffersFit t := by
  cases ht with
  | reset => exact buffersFit_resetBlock s
  | busy _ _ ht => exact ht.buffersFit hinv h
  | accepted _ _ _ _ ht => exact ht.buffersFit hinv.cfg_legal h hpins
  | reserved | waited => exact { h with }

end

/-- Settles O50: a latched sequence is within the format of its port or a frame of a legal configuration, a copied one
is no longer than its buffer, and the ports move on within their formats. -/
theorem sequencesStayWithinMaxFrameBits : Obligations.SequencesStayWithinMaxFrameBits := by
  intro s t hinv h hpins hstep
  obtain ⟨s', hs', rfl⟩ := blockStep_of_step hstep
  obtain ⟨hpin, hscript⟩ := hpins
  obtain ⟨hpinsEq, hscriptEq⟩ := hs'.ports_eq
  have hpins' : PinsFit s' := ⟨hpinsEq ▸ hpin, hscriptEq ▸ hscript⟩
  exact ⟨{ hs'.buffersFit hinv h hpin with }, hpins'.tick⟩

/-- Settles O47: the reset state is idle with the legal default configuration, absent buffers and quiet ports. -/
theorem resetStateSatisfiesTheInvariant : Obligations.ResetStateSatisfiesTheInvariant :=
  ⟨stateInv_of_idle cfgLegal_default rfl rfl rfl rfl (by simp [State.reset]), buffersFit_resetBlock State.reset,
    pins_quiet_wellFormed, by simp [State.reset]⟩

end Sys2Proof.Machine
end

section
namespace Sys2Proof.Machine

/-! ### What the acceptance of a command writes -/

section
variable {i : Instr} {s t : State}

/-- ENCODE alone writes ENC_OUT at its acceptance (40 R103); RUN writes it in a later phase (42 R166). -/
theorem AcceptStep.encOut_eq (h : AcceptStep s i t) (hi : i ≠ .encode) : t.encOut = s.encOut := by
  cases h with
  | encoded => exact absurd rfl hi
  | _ => rfl

/-- DECODE alone writes DEC_OUT at its acceptance (40 R104); RUN writes it in a later phase (42 R172). -/
theorem AcceptStep.decOut_eq (h : AcceptStep s i t) (hi : i ≠ .decode) : t.decOut = s.decOut := by
  cases h with
  | decoded => exact absurd rfl hi
  | _ => rfl

theorem AcceptStep.parOut_eq (h : AcceptStep s i t) (hi : i ≠ .calcParity) : t.parOut = s.parOut := by
  cases h with
  | parityTaken => exact absurd rfl hi
  | _ => rfl

/-- TRANSMIT alone latches a frame to send (41 R130). -/
theorem AcceptStep.txBuffers_eq (h : AcceptStep s i t) (hi : i ≠ .transmit) :
    t.txBuf = s.txBuf ∧ t.txWire = s.txWire ∧ t.txTrace = s.txTrace := by
  cases h with
  | sentNothing | transmitBegun => exact absurd rfl hi
  | _ => exact ⟨rfl, rfl, rfl⟩

/-- RECEIVE alone latches a sequence, and it alone reads the clock at its acceptance (41 R140, R143). -/
theorem AcceptStep.rxBuffers_eq (h : AcceptStep s i t) (hi : i ≠ .receive) :
    t.rxBuf = s.rxBuf ∧ t.rxSeq = s.rxSeq ∧ t.rxElapsed = s.rxElapsed ∧ t.elapsedDraws = s.elapsedDraws := by
  cases h with
  | receivedNothing | receiveBegun => exact absurd rfl hi
  | _ => exact ⟨rfl, rfl, rfl, rfl⟩

theorem AcceptStep.bitIdx_eq (h : AcceptStep s i t) (htx : i ≠ .transmit) (hrx : i ≠ .receive) :
    t.bitIdx = s.bitIdx := by
  cases h with
  | sentNothing | transmitBegun => exact absurd rfl htx
  | receivedNothing | receiveBegun => exact absurd rfl hrx
  | _ => rfl

theorem AcceptStep.byteIdx_eq (h : AcceptStep s i t) (hi : i ≠ .run) : t.byteIdx = s.byteIdx := by
  cases h with
  | ranNothing | runBegun => exact absurd rfl hi
  | _ => rfl

/-- CUR_VALUE is written by RUN's payload draw, never by an acceptance (42 R165). -/
theorem AcceptStep.curValue_eq (h : AcceptStep s i t) : t.curValue = s.curValue := by
  cases h <;> rfl

/-- An acceptance step completes its command, with one entry in the log under its own op code, or begins one of the
four multi-step commands, with STATUS and the log left alone (10 R25 to R27; 60 R221, R232). -/
theorem AcceptStep.completed_or_begun (h : AcceptStep s i t) :
    (t.busy = false ∧ t.cmd = none ∧ t.phase = .idle ∧ t.cl = s.cl ++ [(encode i, t.status)]) ∨
      ((i = .transmit ∨ i = .receive ∨ i = .waitReady ∨ i = .run) ∧
        t.busy = true ∧ t.status = s.status ∧ t.cl = s.cl ∧ t.cmd = some i) := by
  cases h with
  | transmitBegun | receiveBegun | waitBegun | runBegun => exact .inr ⟨by decide, rfl, rfl, rfl, rfl⟩
  | _ => exact .inl ⟨rfl, rfl, rfl, rfl⟩

end

/-- Settles O19: each register's own lemma above, and `AcceptStep.completed_or_begun` for the control registers, STATUS
and the log. -/
theorem acceptanceWritesOnlyTheCommandsRegisters : Obligations.AcceptanceWritesOnlyTheCommandsRegisters := by
  intro i s t hexec
  have h : AcceptStep s i t := acceptStep_of_exec hexec
  obtain ⟨hrdy, hev, htaken, hpins, hscript⟩ := h.frame
  refine ⟨h.cfg_eq, h.encOut_eq, h.decOut_eq, h.parOut_eq, h.txBuffers_eq, h.rxBuffers_eq, h.bitIdx_eq, h.byteIdx_eq,
    ?single, ?inProgress, hrdy, h.curValue_eq, hev, htaken, hpins, hscript⟩
  case single =>
    intro htx hrx hwait hrun
    rcases h.completed_or_begun with hdone | ⟨hmulti, -⟩
    · exact hdone
    · simp [htx, hrx, hwait, hrun] at hmulti
  case inProgress =>
    intro hbusy
    rcases h.completed_or_begun with ⟨hidle, -⟩ | ⟨-, -, hbegun⟩
    · simp [hidle] at hbusy
    · exact hbegun

end Sys2Proof.Machine
end

section
namespace Sys2Proof.Machine

/-! ### The opcode map -/

/-- The op code of a command decodes to it (30 R81, R83). -/
@[simp] theorem decode_encode (i : Instr) : decode (encode i) = .ok i := by
  cases i <;> rfl

/-- The reserved codes 0x0 and 0x9 to 0xF are rejected by name (30 R82). -/
theorem decode_of_reserved {op : OpCode} (h : op.toNat = 0 ∨ 9 ≤ op.toNat) :
    decode op = .error (.reservedOpcode op) := by
  unfold decode
  split
  case h_9 => rfl
  all_goals omega

/-- Settles O1: the eight codes are looked up one by one, and no other code has a row. -/
theorem opCodesDecodeByTheOpcodeMap : Obligations.OpCodesDecodeByTheOpcodeMap :=
  ⟨decode_encode .configure, decode_encode .encode, decode_encode .decode, decode_encode .calcParity,
    decode_encode .transmit, decode_encode .receive, decode_encode .waitReady, decode_encode .run,
    fun _ => decode_of_reserved⟩

/-- Settles O2: the map read backwards and forwards. -/
theorem opCodeOfACommandIsUnique : Obligations.OpCodeOfACommandIsUnique := by
  intro i op
  constructor
  · exact eq_encode_of_decode
  · rintro rfl
    exact decode_encode i

end Sys2Proof.Machine
end

section
/-! Several steps in a row: a command that is accepted, a command in progress, and a command that does one bit per
step, under ports that assert no reset. -/

namespace Sys2Proof.Machine

/-! ### Runs of several steps -/

section
variable {s s' t : State} {k n : Nat} {i : Instr}

theorem run_succ_of_step (h : step s = .next s') : Host.Core.run core (k + 1) s = Host.Core.run core k s' := by
  have hcore : core.step s = .next s' := h
  simp only [Host.Core.run, hcore]

theorem run_one_of_step (h : step s = .next t) : Host.Core.run core 1 s = .next t := run_succ_of_step h

theorem run_succ_of_run (hrun : Host.Core.run core k s = .next s') (hstep : step s' = .next t) :
    Host.Core.run core (k + 1) s = .next t := by
  induction k generalizing s with
  | zero =>
    cases hrun
    exact run_one_of_step hstep
  | succ k ih =>
    cases hs : step s with
    | next s₁ =>
      rw [run_succ_of_step hs] at hrun ⊢
      exact ih hrun
    | fault r =>
      have hcore : core.step s = .fault r := hs
      simp [Host.Core.run, hcore] at hrun
    | refused r =>
      have hcore : core.step s = .refused r := hs
      simp [Host.Core.run, hcore] at hrun

theorem step_of_accepted (hrst : s.pins.rst = false) (hidle : s.busy = false) (hoffer : s.pins.cmdValid = true)
    (hop : decode s.pins.cmdOp = .ok i) (h : exec i s = .next t) : step s = .next (tick t) := by
  rw [stepRunsTheAcceptedCommand s i hrst hidle hoffer hop rfl, h]
  rfl

theorem step_of_inProgress (hrst : s.pins.rst = false) (hbusy : s.busy = true) (h : phaseStep s = .next t) :
    step s = .next (tick t) :=
  step_eq_next.mpr ⟨t, by simpa [blockStep, hrst, hbusy] using h, rfl⟩

/-- The port sample of the step `n` steps from now (log 2). -/
def portsAt (n : Nat) (s : State) : Pins := (s.pins :: s.script).getD n Pins.quiet

theorem portsAt_tick (n : Nat) (s : State) : portsAt n (tick s) = portsAt (n + 1) s := by
  cases hscript : s.script <;> cases n <;> simp [portsAt, hscript]

/-- Steps of the ports alone change nothing else. -/
theorem iterate_tick_eq (n : Nat) (s : State) :
    tick^[n] s = { s with pins := portsAt n s, script := s.script.drop n } := by
  induction n generalizing s with
  | zero => rfl
  | succ n ih =>
    rw [Function.iterate_succ_apply, ih, portsAt_tick]
    simp [tick]

/-- No reset is asserted at this step and the `n - 1` steps after it. -/
def NoResetFor (n : Nat) (s : State) : Prop := ∀ j < n, (portsAt j s).rst = false

theorem NoResetFor.tick (h : NoResetFor (n + 1) s) : NoResetFor n (tick s) := by
  intro j hj
  rw [portsAt_tick]
  exact h (j + 1) (by omega)

/-- Ports whose script has run out are quiet, and so assert no reset (log 2). -/
theorem noResetFor_of_script_nil (hscript : s.script = []) (hrst : s.pins.rst = false) (n : Nat) :
    NoResetFor n s := by
  intro j _
  cases j with
  | zero => exact hrst
  | succ j => simp [portsAt, hscript, Pins.quiet]

/-- A command in progress for `n` steps, described by its stages: `stage k u` is the state after `k` of the steps, where
`u` holds the ports and all that the steps leave alone, and `Ready u` says what of it they need. The last stage is the
completion. -/
structure Stages (n : Nat) (Ready : State → Prop) (stage : Nat → State → State) : Prop where
  ready_tick : ∀ u, Ready u → Ready (tick u)
  tick_stage : ∀ k u, tick (stage k u) = stage k (tick u)
  pins : ∀ k u, (stage k u).pins = u.pins
  busy : ∀ k < n, ∀ u, Ready u → (stage k u).busy = true
  phaseStep : ∀ k < n, ∀ u, Ready u → phaseStep (stage k u) = .next (stage (k + 1) u)

section
variable {Ready : State → Prop} {stage : Nat → State → State} {u : State}

theorem Stages.step (hst : Stages n Ready stage) (hk : k < n) (hu : Ready u) (hrst : u.pins.rst = false) :
    step (stage k u) = .next (stage (k + 1) (tick u)) := by
  rw [← hst.tick_stage]
  exact step_of_inProgress (by rwa [hst.pins]) (hst.busy k hk u hu) (hst.phaseStep k hk u hu)

/-- Without a reset a command in progress goes through its stages (10 R28). -/
theorem Stages.run (hst : Stages n Ready stage) (hu : Ready u) (hrst : NoResetFor n u) :
    Host.Core.run core n (stage 0 u) = .next (stage n (tick^[n] u)) := by
  have hready (k : Nat) : Ready (tick^[k] u) := Function.Iterate.rec Ready hu hst.ready_tick k
  have hpins (k : Nat) (hk : k < n) : (tick^[k] u).pins.rst = false := by
    simpa only [iterate_tick_eq] using hrst k hk
  have hrun (k : Nat) (hk : k ≤ n) : Host.Core.run core k (stage 0 u) = .next (stage k (tick^[k] u)) := by
    induction k with
    | zero => rfl
    | succ k ih =>
      rw [Function.iterate_succ_apply']
      exact run_succ_of_run (ih (by omega)) (hst.step hk (hready k) (hpins k hk))
  exact hrun n le_rfl

/-- A command takes its acceptance step and then one step per stage (70 R268). -/
theorem Stages.run_accepted (hst : Stages n Ready stage) (hidle : s.busy = false) (hoffer : s.pins.cmdValid = true)
    (hop : decode s.pins.cmdOp = .ok i) (hexec : exec i s = .next (stage 0 u)) (hu : Ready u)
    (hports : u.pins = s.pins ∧ u.script = s.script) (hrst : NoResetFor (1 + n) s) :
    Host.Core.run core (1 + n) s = .next (stage n (tick^[1 + n] u)) := by
  obtain ⟨hpins, hscript⟩ := hports
  have hrst' : NoResetFor (n + 1) u := by simpa [NoResetFor, portsAt, hpins, hscript, Nat.add_comm] using hrst
  have haccept := step_of_accepted (hrst 0 (by omega)) hidle hoffer hop hexec
  rw [Nat.add_comm, run_succ_of_step haccept, hst.tick_stage, Function.iterate_succ_apply]
  exact hst.run (hst.ready_tick u hu) hrst'.tick

end

end

end Sys2Proof.Machine
end

section
namespace Sys2Proof.Machine

/-! ### TRANSMIT without injection -/

section
variable {s : State} {f : BitSeq} {k : Nat}

theorem bitEvents_concat (w : BitSeq) (b : Bit) : bitEvents (w ++ [b]) = bitEvents w ++ [.bit w.length b] := by
  simp [bitEvents, List.zipIdx_append]

/-- `s` after the first `k` bits of `f` went out as they are (41 R131). -/
def sentPrefix (f : BitSeq) (k : Nat) (s : State) : State :=
  { s with
    txWire := some (f.take k)
    txTrace := some (List.replicate k (1 / (s.cfg.baud : Rat)))
    bitIdx := k
    ev := s.ev ++ bitEvents (f.take k) }

@[simp] theorem sentPrefix_txWire : (sentPrefix f k s).txWire = some (f.take k) := rfl
@[simp] theorem sentPrefix_ev : (sentPrefix f k s).ev = s.ev ++ bitEvents (f.take k) := rfl
@[simp] theorem sentPrefix_script : (sentPrefix f k s).script = s.script := rfl

/-- A TRANSMIT of `f` after `k` bit steps, the last of which completes it (41 R134). -/
def transmitStage (f : BitSeq) (k : Nat) (s : State) : State :=
  if k = f.length then complete 0x5 .ok (sentPrefix f k s) else sentPrefix f k s

/-- What a TRANSMIT of `f` in progress with INJ = 0 reads at each bit step besides its own progress. -/
structure CleanTransmit (f : BitSeq) (s : State) : Prop where
  busy : s.busy = true
  phase : s.phase = .tx
  txBuf : s.txBuf = some f
  inj : s.cfg.inj = false
  baud : s.cfg.baud ≠ 0

theorem txWritten_sentPrefix (hk : k < f.length) :
    txWritten (sentPrefix f k s) (sentPrefix f k s) (f.take k) (List.replicate k (1 / (s.cfg.baud : Rat))) f[k] false =
      sentPrefix f (k + 1) s := by
  have htake : f.take (k + 1) = f.take k ++ [f[k]] := by simp
  have hlen : (f.take k).length = k := by simp; omega
  simp only [txWritten, sentPrefix, htake, bitEvents_concat, hlen, List.replicate_succ', Bool.xor_false,
    List.append_assoc]

theorem transmitStage_of_lt (hk : k < f.length) : transmitStage f k s = sentPrefix f k s := if_neg hk.ne

theorem phaseStep_sentPrefix (hk : k < f.length) (h : CleanTransmit f s) :
    phaseStep (sentPrefix f k s) = .next (transmitStage f (k + 1) s) := by
  have hphase : (sentPrefix f k s).phase = .tx := h.phase
  rw [phaseStep, hphase]
  refine txBitStep_eq_next.mpr ⟨f, _, _, f[k], h.txBuf, rfl, rfl, List.getElem?_eq_getElem hk, h.baud,
    .inr ⟨false, _, .inl ⟨h.inj, rfl, rfl⟩, ?_⟩⟩
  rw [txWritten_sentPrefix hk]
  rfl

theorem stages_transmit (f : BitSeq) : Stages f.length (CleanTransmit f) (transmitStage f) where
  ready_tick _ h := { h with }
  tick_stage k u := by unfold transmitStage; split <;> rfl
  pins k u := by unfold transmitStage; split <;> rfl
  busy k hk u h := by simpa [transmitStage_of_lt hk, sentPrefix] using h.busy
  phaseStep k hk u h := by rw [transmitStage_of_lt hk, phaseStep_sentPrefix hk h]

/-- The acceptance of TRANSMIT for a frame that is not empty (41 R130). -/
theorem exec_transmit_of_ne_nil (hv : s.cfgValid = true) (hf : s.pins.frameIn ≠ []) :
    exec .transmit s =
      .next (transmitStage s.pins.frameIn 0 (begin .transmit .tx { s with txBuf := some s.pins.frameIn })) := by
  rw [transmitStage_of_lt (List.length_pos_iff.mpr hf)]
  simp [exec, execTransmit, guarded_of_valid _ _ hv, hf, begin, sentPrefix, bitEvents]

/-- A TRANSMIT with INJ = 0 that no reset interrupts sends its frame unchanged in one step per bit (41 R134). -/
theorem run_transmit_of_noInjection (hidle : s.busy = false) (hoffer : s.pins.cmdValid = true)
    (hop : decode s.pins.cmdOp = .ok .transmit) (hv : s.cfgValid = true) (hinj : s.cfg.inj = false)
    (hbaud : s.cfg.baud ≠ 0) (hf : s.pins.frameIn ≠ []) (hrst : NoResetFor (1 + s.pins.frameIn.length) s) :
    Host.Core.run core (1 + s.pins.frameIn.length) s =
      .next (tick^[1 + s.pins.frameIn.length] (complete 0x5 .ok
        (sentPrefix s.pins.frameIn s.pins.frameIn.length { s with txBuf := some s.pins.frameIn }))) := by
  have hrun := (stages_transmit s.pins.frameIn).run_accepted hidle hoffer hop (exec_transmit_of_ne_nil hv hf)
    ⟨rfl, rfl, rfl, hinj, hbaud⟩ ⟨rfl, rfl⟩ hrst
  rw [hrun, iterate_tick_eq, iterate_tick_eq, transmitStage, if_pos rfl]
  rfl

end

end Sys2Proof.Machine
end

section
namespace Sys2Proof.Machine

/-! ### RECEIVE -/

section
variable {s : State} {f : BitSeq} {k : Nat}

/-- `s` after the first `k` bits of `f` were copied (41 R141). -/
def copiedPrefix (f : BitSeq) (k : Nat) (s : State) : State := { s with rxSeq := some (f.take k), bitIdx := k }

@[simp] theorem copiedPrefix_rxSeq : (copiedPrefix f k s).rxSeq = some (f.take k) := rfl
@[simp] theorem copiedPrefix_ev : (copiedPrefix f k s).ev = s.ev := rfl
@[simp] theorem copiedPrefix_script : (copiedPrefix f k s).script = s.script := rfl

/-- A RECEIVE of `f` after `k` bit steps, the last of which draws the elapsed time and completes it (41 R142). -/
def receiveStage (f : BitSeq) (k : Nat) (s : State) : State :=
  if k = f.length then complete 0x6 .ok (drawElapsed (copiedPrefix f k s)) else copiedPrefix f k s

/-- What a RECEIVE of `f` in progress reads at each bit step besides its own progress. -/
structure ReceiveReady (f : BitSeq) (s : State) : Prop where
  busy : s.busy = true
  phase : s.phase = .rx
  rxBuf : s.rxBuf = some f
  baud : s.cfg.baud ≠ 0

theorem rxWritten_copiedPrefix (hk : k < f.length) :
    rxWritten (copiedPrefix f k s) (f.take k) f[k] = copiedPrefix f (k + 1) s := by
  have htake : f.take (k + 1) = f.take k ++ [f[k]] := by simp
  simp only [rxWritten, copiedPrefix, htake]

theorem receiveStage_of_lt (hk : k < f.length) : receiveStage f k s = copiedPrefix f k s := if_neg hk.ne

theorem phaseStep_copiedPrefix (hk : k < f.length) (h : ReceiveReady f s) :
    phaseStep (copiedPrefix f k s) = .next (receiveStage f (k + 1) s) := by
  have hphase : (copiedPrefix f k s).phase = .rx := h.phase
  rw [phaseStep, hphase]
  refine rxBitStep_eq_next.mpr ⟨f, _, f[k], h.rxBuf, rfl, List.getElem?_eq_getElem hk, h.baud, ?_⟩
  rw [rxWritten_copiedPrefix hk]
  rfl

theorem stages_receive (f : BitSeq) : Stages f.length (ReceiveReady f) (receiveStage f) where
  ready_tick _ h := { h with }
  tick_stage k u := by unfold receiveStage; split <;> rfl
  pins k u := by unfold receiveStage; split <;> rfl
  busy k hk u h := by simpa [receiveStage_of_lt hk, copiedPrefix] using h.busy
  phaseStep k hk u h := by rw [receiveStage_of_lt hk, phaseStep_copiedPrefix hk h]

/-- The acceptance of RECEIVE for a sequence that is not empty (41 R140). -/
theorem exec_receive_of_ne_nil (hv : s.cfgValid = true) (hf : s.pins.frameIn ≠ []) :
    exec .receive s =
      .next (receiveStage s.pins.frameIn 0 (begin .receive .rx { s with rxBuf := some s.pins.frameIn })) := by
  rw [receiveStage_of_lt (List.length_pos_iff.mpr hf)]
  simp [exec, execReceive, guarded_of_valid _ _ hv, hf, begin, copiedPrefix]

/-- A RECEIVE that no reset interrupts copies its sequence in one step per bit (41 R142). -/
theorem run_receive (hidle : s.busy = false) (hoffer : s.pins.cmdValid = true)
    (hop : decode s.pins.cmdOp = .ok .receive) (hv : s.cfgValid = true) (hbaud : s.cfg.baud ≠ 0)
    (hf : s.pins.frameIn ≠ []) (hrst : NoResetFor (1 + s.pins.frameIn.length) s) :
    Host.Core.run core (1 + s.pins.frameIn.length) s =
      .next (tick^[1 + s.pins.frameIn.length] (complete 0x6 .ok (drawElapsed
        (copiedPrefix s.pins.frameIn s.pins.frameIn.length { s with rxBuf := some s.pins.frameIn })))) := by
  have hrun := (stages_receive s.pins.frameIn).run_accepted hidle hoffer hop (exec_receive_of_ne_nil hv hf)
    ⟨rfl, rfl, rfl, hbaud⟩ ⟨rfl, rfl⟩ hrst
  rw [hrun, iterate_tick_eq, iterate_tick_eq, receiveStage, if_pos rfl]
  rfl

end

end Sys2Proof.Machine
end

section
namespace Sys2Proof.Machine

/-! ### Decoding a sent frame -/

section
variable {v W : Nat} {pm : ParityMode}

theorem encodeFrame_ne_nil (v W : Nat) (pm : ParityMode) : encodeFrame v W pm ≠ [] := by
  simp [encodeFrame]

/-- 30 R70: the bits after the start bit are the data bits. -/
theorem encodeFrame_data : ((encodeFrame v W pm).drop 1).take W = dataBits W (trunc W v) := by
  simp [encodeFrame]

/-- 40 R101: the last bit of a frame is the stop bit 1. -/
theorem encodeFrame_stop : (encodeFrame v W pm)[frameLength W pm - 1]? = some true := by
  rw [← encodeFrame_length v W pm, ← List.getLast?_eq_getElem?, encodeFrame, List.getLast?_concat]

/-- The bit after the data bits begins the parity field, if there is one (40 R101). -/
theorem encodeFrame_parity (hpm : pm ≠ .none) :
    (encodeFrame v W pm)[W + 1]? = some (parityBit (trunc W v) W pm) := by
  cases pm with
  | none => exact absurd rfl hpm
  | even | odd => simp [encodeFrame, parityField]

/-- A sent frame decodes to the low W bits of its value without an error (40 R106). -/
theorem decodeFrame_encodeFrame (v W : Nat) (pm : ParityMode) :
    decodeFrame (encodeFrame v W pm) W pm = .ok { value := v % 2 ^ W, fe := false, pe := false } := by
  have hvalue : valueOf (((encodeFrame v W pm).drop 1).take W) = trunc W v := by
    rw [encodeFrame_data, valueOf_dataBits, trunc, Nat.mod_mod]
  have hfe : framingError (encodeFrame v W pm) (frameLength W pm) = false := by
    simp [framingError, encodeFrame_stop]
  have hpe : parityError (encodeFrame v W pm) (trunc W v) W pm = false := by
    cases pm with
    | none => rfl
    | even | odd => simp [parityError, encodeFrame_parity]
  rw [decodeFrame_ok (encodeFrame_length v W pm), hvalue, hfe, hpe]
  rfl

end

end Sys2Proof.Machine
end

section
namespace Sys2Proof.Machine

/-! ### SEND -/

section
variable {s t : State} {f : BitSeq} {op : OpCode} {es : List Event}

theorem exec_encode_of_valid (hv : s.cfgValid = true) :
    exec .encode s =
      .next (complete 0x2 .ok { s with encOut := some (encodeFrame s.pins.din s.cfg.w s.cfg.pm) }) :=
  guarded_of_valid _ _ hv

/-- DECODE of a well-shaped sequence (40 R104). -/
theorem exec_decode_of_ok {d : Decoded} (hv : s.cfgValid = true)
    (hd : decodeFrame s.pins.frameIn s.cfg.w s.cfg.pm = .ok d) :
    exec .decode s = .next (complete 0x3 .ok { s with decOut := some d }) := by
  simp only [exec, execDecode, guarded_of_valid _ _ hv, hd, encode]

/-- Where the lines of a SEND are presented: an idle block with a legal configuration and injection off, and a host
that leaves the ports quiet after each line (30 R89; log 2). -/
structure SendIdle (s : State) : Prop where
  idle : s.busy = false
  configured : s.cfgValid = true
  inj : s.cfg.inj = false
  baud : s.cfg.baud ≠ 0
  script : s.script = []

/-- From `s` to `t` the command `op` ran to its end: it completed with OK and emitted `es`, and it left RDY, the
configuration and the draws alone. -/
structure LineDone (op : OpCode) (es : List Event) (s t : State) : Prop where
  idle : t.busy = false
  status : t.status = .ok
  cl : t.cl = s.cl ++ [(op, .ok)]
  ev : t.ev = s.ev ++ es
  cfg : t.cfg = s.cfg
  cfgValid : t.cfgValid = s.cfgValid
  rdy : t.rdy = s.rdy
  rndTaken : t.rndTaken = s.rndTaken
  script : t.script = []

theorem LineDone.sendIdle (ht : LineDone op es s t) (h : SendIdle s) : SendIdle t where
  idle := ht.idle
  configured := ht.cfgValid.trans h.configured
  inj := ht.cfg ▸ h.inj
  baud := ht.cfg ▸ h.baud
  script := ht.script

@[simp] theorem present_ev (l : Line) (s : State) : (l.present s).ev = s.ev := rfl
@[simp] theorem present_script (l : Line) (s : State) : (l.present s).script = s.script := rfl
@[simp] theorem present_transmit_frameIn : ((Line.transmit f).present s).pins.frameIn = f := rfl
@[simp] theorem present_receive_frameIn : ((Line.receive f).present s).pins.frameIn = f := rfl

/-- A line presented to an idle block is accepted at once (30 R80). -/
theorem step_present (l : Line) (hidle : s.busy = false) (h : exec l.instr (l.present s) = .next t) :
    step (l.present s) = .next (tick t) :=
  step_of_accepted rfl hidle rfl (decode_encode l.instr) h

theorem SendIdle.noResetFor (h : SendIdle s) (l : Line) (n : Nat) : NoResetFor n (l.present s) :=
  noResetFor_of_script_nil (s := l.present s) h.script rfl n

theorem SendIdle.run_encode (h : SendIdle s) (v : Nat) :
    ∃ t, Host.Core.run core 1 ((Line.encode v).present s) = .next t ∧ LineDone 0x2 [] s t ∧
      t.encOut = some (encodeFrame v s.cfg.w s.cfg.pm) := by
  have hstep := step_present (.encode v) h.idle (exec_encode_of_valid h.configured)
  exact ⟨_, run_one_of_step hstep, ⟨rfl, rfl, rfl, by simp, rfl, rfl, rfl, rfl, by simp [h.script]⟩, rfl⟩

theorem SendIdle.run_transmit (h : SendIdle s) (hf : f ≠ []) :
    ∃ t, Host.Core.run core (1 + f.length) ((Line.transmit f).present s) = .next t ∧
      LineDone 0x5 (bitEvents f) s t ∧ t.txWire = some f := by
  have hrun := run_transmit_of_noInjection (s := (Line.transmit f).present s) h.idle rfl (decode_encode .transmit)
    h.configured h.inj h.baud hf (h.noResetFor _ _)
  rw [iterate_tick_eq] at hrun
  exact ⟨_, hrun, ⟨rfl, rfl, rfl, by simp, rfl, rfl, rfl, rfl, by simp [h.script]⟩, by simp⟩

theorem SendIdle.run_receive (h : SendIdle s) (hf : f ≠ []) :
    ∃ t, Host.Core.run core (1 + f.length) ((Line.receive f).present s) = .next t ∧
      LineDone 0x6 [] s t ∧ t.rxSeq = some f := by
  have hrun := Machine.run_receive (s := (Line.receive f).present s) h.idle rfl (decode_encode .receive)
    h.configured h.baud hf (h.noResetFor _ _)
  rw [iterate_tick_eq] at hrun
  exact ⟨_, hrun, ⟨rfl, rfl, rfl, by simp, rfl, rfl, rfl, rfl, by simp [h.script]⟩, by simp⟩

theorem SendIdle.run_decode {d : Decoded} (h : SendIdle s) (hd : decodeFrame f s.cfg.w s.cfg.pm = .ok d) :
    ∃ t, Host.Core.run core 1 ((Line.decode f).present s) = .next t ∧ LineDone 0x3 [] s t ∧
      t.decOut = some d := by
  have hstep := step_present (.decode f) h.idle (exec_decode_of_ok h.configured hd)
  exact ⟨_, run_one_of_step hstep, ⟨rfl, rfl, rfl, by simp, rfl, rfl, rfl, rfl, by simp [h.script]⟩, rfl⟩

end

/-- Settles O46: each line leaves the frame in the register that the next line copies, the frame decodes to its value,
and every line keeps what the next one needs. -/
theorem sendRoundTripsTheValue : Obligations.SendRoundTripsTheValue := by
  intro s v hinv hidle hv hinj hscript L
  obtain ⟨-, -, hbaud, -⟩ := hinv.cfg_legal
  have h : SendIdle s := ⟨hidle, hv, hinj, by omega, hscript⟩
  have hne : encodeFrame v s.cfg.w s.cfg.pm ≠ [] := encodeFrame_ne_nil _ _ _
  have hlen : (encodeFrame v s.cfg.w s.cfg.pm).length = L := encodeFrame_length _ _ _
  obtain ⟨s₁, hrun₁, hdone₁, henc⟩ := h.run_encode v
  have h₁ : SendIdle s₁ := hdone₁.sendIdle h
  obtain ⟨s₂, hrun₂, hdone₂, hwire⟩ := h₁.run_transmit hne
  have h₂ : SendIdle s₂ := hdone₂.sendIdle h₁
  obtain ⟨s₃, hrun₃, hdone₃, hseq⟩ := h₂.run_receive hne
  have h₃ : SendIdle s₃ := hdone₃.sendIdle h₂
  have hcfg : s₃.cfg = s.cfg := hdone₃.cfg.trans (hdone₂.cfg.trans hdone₁.cfg)
  have hframe : decodeFrame (encodeFrame v s.cfg.w s.cfg.pm) s₃.cfg.w s₃.cfg.pm =
      .ok { value := v % 2 ^ s.cfg.w, fe := false, pe := false } := by
    rw [hcfg]
    exact decodeFrame_encodeFrame v s.cfg.w s.cfg.pm
  obtain ⟨s₄, hrun₄, hdone₄, hdec⟩ := h₃.run_decode hframe
  rw [hlen] at hrun₂ hrun₃
  refine ⟨_, s₁, s₂, s₃, s₄, hrun₁, henc, hrun₂, hwire, hrun₃, hseq, hrun₄, hdec, hdone₄.status, hdone₄.idle,
    ?rdy, ?draws, ?events, ?log⟩
  case rdy => rw [hdone₄.rdy, hdone₃.rdy, hdone₂.rdy, hdone₁.rdy]
  case draws => rw [hdone₄.rndTaken, hdone₃.rndTaken, hdone₂.rndTaken, hdone₁.rndTaken]
  case events => simp [hdone₄.ev, hdone₃.ev, hdone₂.ev, hdone₁.ev]
  case log => simp [hdone₄.cl, hdone₃.cl, hdone₂.cl, hdone₁.cl]

end Sys2Proof.Machine
end

section
namespace Sys2Proof.Machine

/-! ### The parity of a bit sequence -/

section
variable {v W i : Nat} {pm : ParityMode} {bs m : BitSeq}

/-- 00 R13: the XOR of a sequence says whether it holds an odd number of ones. -/
theorem xorReduce_eq_odd_count (bs : BitSeq) : xorReduce bs = decide (bs.count true % 2 = 1) := by
  induction bs with
  | nil => rfl
  | cons b bs ih =>
    rw [xorReduce_cons, ih]
    cases b with
    | false => simp
    | true =>
      rcases Nat.mod_two_eq_zero_or_one (bs.count true) with h | h <;> simp [h, Nat.add_mod]

theorem xorReduce_perm {bs' : BitSeq} (h : bs.Perm bs') : xorReduce bs = xorReduce bs' := by
  rw [xorReduce_eq_odd_count, xorReduce_eq_odd_count, h.count_eq]

/-- One inverted bit inverts the XOR. -/
theorem xorReduce_modify_not (h : i < bs.length) : xorReduce (bs.modify i not) = !xorReduce bs := by
  induction bs generalizing i with
  | nil => simp at h
  | cons b bs ih =>
    cases i with
    | zero => simp
    | succ i => simp [ih (i := i) (by simpa using h)]

/-- The XOR is linear: a mask changes it by the mask's own XOR. -/
theorem xorReduce_zipWith_xor (h : bs.length = m.length) :
    xorReduce (List.zipWith xor bs m) = (xorReduce bs ^^ xorReduce m) := by
  induction bs generalizing m with
  | nil => simp_all [List.eq_nil_of_length_eq_zero h.symm]
  | cons b bs ih =>
    cases m with
    | nil => simp at h
    | cons c m =>
      rw [List.zipWith_cons_cons, xorReduce_cons, ih (by simpa using h), xorReduce_cons, xorReduce_cons]
      simp only [Bool.xor_assoc, Bool.xor_left_comm]

/-- 40 R100: the check bit of the three modes in one formula. -/
theorem parityBit_eq (v W : Nat) (pm : ParityMode) :
    parityBit v W pm = (xorReduce (dataBits W v) ^^ decide (pm = .odd)) := by
  cases pm <;> simp [parityBit]

theorem count_true_dataBits (W v : Nat) :
    (dataBits W v).count true = ((List.range W).filter fun i => v / 2 ^ i % 2 = 1).length := by
  rw [dataBits, List.count_eq_countP, List.countP_map, List.countP_eq_length_filter]
  congr 2
  funext i
  simp [bitOf, Nat.testBit_eq_decide_div_mod_eq]

end

/-- Settles O22: the XOR of the data bits is the parity of their number of ones, which no permutation changes. -/
theorem parityBitCountsOnes : Obligations.ParityBitCountsOnes := by
  refine ⟨fun v W => ?ones, fun _ _ h => xorReduce_perm h, fun v v' W pm h => ?perm⟩
  case ones =>
    rw [← count_true_dataBits]
    simp [parityBit_eq, xorReduce_eq_odd_count, ← decide_not]
  case perm => rw [parityBit_eq, parityBit_eq, xorReduce_perm h]

end Sys2Proof.Machine
end

section
namespace Sys2Proof.Machine

/-! ### The value of a bit sequence -/

section
variable {i : Nat} {bs m : BitSeq}

theorem dataBits_valueOf (bs : BitSeq) : dataBits bs.length (valueOf bs) = bs := by
  refine List.ext_getElem? fun i => ?_
  by_cases h : i < bs.length
  · rw [dataBits_getElem? h, valueOf_testBit, List.getElem?_eq_getElem h, Option.getD_some]
  · simp [h]

/-- 30 R86: the reassembled value as a sum over the ones of the sequence. -/
theorem valueOf_eq_sum (bs : BitSeq) :
    valueOf bs = ∑ i ∈ Finset.range bs.length, if bs[i]? = some true then 2 ^ i else 0 := by
  induction bs with
  | nil => rfl
  | cons b bs ih =>
    have hhigh : 2 * valueOf bs = ∑ i ∈ Finset.range bs.length, if bs[i]? = some true then 2 ^ (i + 1) else 0 := by
      simp only [ih, Finset.mul_sum, mul_ite, mul_zero, pow_succ']
    rw [valueOf, List.length_cons, Finset.sum_range_succ', hhigh]
    cases b <;> simp [add_comm]

/-- Inverting bit i of a sequence inverts bit i of its value. -/
theorem valueOf_modify_not (h : i < bs.length) : valueOf (bs.modify i not) = valueOf bs ^^^ 2 ^ i := by
  refine Nat.eq_of_testBit_eq fun j => ?_
  rw [valueOf_testBit, Nat.testBit_xor, valueOf_testBit, Nat.testBit_two_pow, List.getElem?_modify]
  by_cases hij : i = j
  · subst hij
    simp [h]
  · simp [hij]

theorem valueOf_zipWith_xor (h : bs.length = m.length) :
    valueOf (List.zipWith xor bs m) = valueOf bs ^^^ valueOf m := by
  refine Nat.eq_of_testBit_eq fun j => ?_
  rw [valueOf_testBit, Nat.testBit_xor, valueOf_testBit, valueOf_testBit]
  by_cases hj : j < m.length
  · simp [h, hj]
  · simp [h, hj]

theorem valueOf_ne_zero (h : bs[i]? = some true) : valueOf bs ≠ 0 := by
  intro hzero
  have hbit := valueOf_testBit bs i
  simp [hzero, h] at hbit

end

end Sys2Proof.Machine
end

section
namespace Sys2Proof.Machine

/-! ### The fields of a frame -/

/-- The bits s[1..n]: the data field for n = W, the data field with the parity field for n = W + P (40 R101). -/
def afterStart (n : Nat) (s : BitSeq) : BitSeq := (s.drop 1).take n

section
variable {v W n i : Nat} {pm : ParityMode} {s s' m : BitSeq} {d : Decoded}

theorem afterStart_length (h : n < s.length) : (afterStart n s).length = n := by
  simp [afterStart]; omega

theorem afterStart_getElem? (h : i < n) : (afterStart n s)[i]? = s[1 + i]? := by
  rw [afterStart, List.getElem?_take_of_lt h, List.getElem?_drop]

theorem afterStart_succ {b : Bit} (h : s[n + 1]? = some b) : afterStart (n + 1) s = afterStart n s ++ [b] := by
  rw [afterStart, List.take_add_one, List.getElem?_drop, Nat.add_comm, h]
  rfl

theorem afterStart_congr (h : ∀ k, 1 ≤ k → k ≤ n → s[k]? = s'[k]?) : afterStart n s = afterStart n s' := by
  refine List.ext_getElem? fun i => ?_
  by_cases hi : i < n
  · rw [afterStart_getElem? hi, afterStart_getElem? hi, h (1 + i) (by omega) (by omega)]
  · simp [afterStart, hi]

theorem afterStart_modify (f : Bit → Bit) : afterStart n (s.modify (1 + i) f) = (afterStart n s).modify i f := by
  rw [afterStart, List.drop_modify_of_ge _ _ _ _ (by omega), List.take_modify, Nat.add_sub_cancel_left]
  rfl

theorem afterStart_zipWith (f : Bit → Bit → Bit) :
    afterStart n (List.zipWith f s m) = List.zipWith f (afterStart n s) (afterStart n m) := by
  simp [afterStart, List.drop_zipWith, List.take_zipWith]

/-- 30 R86: the value of the data field, index by index of the frame. -/
theorem valueOf_afterStart (h : n < s.length) :
    valueOf (afterStart n s) = ∑ i ∈ Finset.range n, if s[1 + i]? = some true then 2 ^ i else 0 := by
  rw [valueOf_eq_sum, afterStart_length h]
  refine Finset.sum_congr rfl fun i hi => ?_
  rw [afterStart_getElem? (Finset.mem_range.mp hi)]

theorem parityCount_eq_one (h : pm ≠ .none) : pm.count = 1 := by
  cases pm with
  | none => exact absurd rfl h
  | even | odd => rfl

/-- 00 R8, with P written out. -/
theorem frameLength_eq (W : Nat) (pm : ParityMode) : frameLength W pm = 2 + W + if pm = .none then 0 else 1 := by
  cases pm <;> rfl

/-- The stop bit stands after the start bit, the data field and the parity field (40 R101). -/
theorem stopIndex_eq (W : Nat) (pm : ParityMode) : frameLength W pm - 1 = 1 + (W + pm.count) := by
  unfold frameLength; omega

theorem parityError_of_parity (hpm : pm ≠ .none) :
    parityError s v W pm = !(s[W + 1]? == some (parityBit v W pm)) := by
  cases pm with
  | none => exact absurd rfl hpm
  | even | odd => rfl

/-- 40 R102: with parity, PE = 0 exactly when s[1..W+1] holds an even number of ones, an odd one under Odd. -/
theorem parityError_eq_xorReduce (h : s.length = frameLength W pm) :
    parityError s (valueOf (afterStart W s)) W pm =
      (decide (pm ≠ .none) && (xorReduce (afterStart (W + pm.count) s) ^^ decide (pm = .odd))) := by
  by_cases hpm : pm = .none
  · subst hpm
    rfl
  have hlen : s.length = W + 3 := by rw [h, frameLength, parityCount_eq_one hpm]; omega
  have hdata : dataBits W (valueOf (afterStart W s)) = afterStart W s := by
    simpa [afterStart_length (n := W) (s := s) (by omega)] using dataBits_valueOf (afterStart W s)
  have hparity : s[W + 1]? = some s[W + 1] := List.getElem?_eq_getElem (by omega)
  rw [parityError_of_parity hpm, parityBit_eq, hdata, parityCount_eq_one hpm, afterStart_succ hparity,
    xorReduce_append, hparity]
  cases s[W + 1] <;> simp [hpm]

/-- What the decoder reads from a well-shaped sequence: each result depends on its own bits (40 R102, R109). -/
structure Reads (s : BitSeq) (W : Nat) (pm : ParityMode) (d : Decoded) : Prop where
  length : s.length = frameLength W pm
  value : d.value = valueOf (afterStart W s)
  fe : d.fe = !(s[1 + (W + pm.count)]? == some true)
  pe : d.pe = (decide (pm ≠ .none) && (xorReduce (afterStart (W + pm.count) s) ^^ decide (pm = .odd)))

theorem decodeFrame_eq_ok_iff : decodeFrame s W pm = .ok d ↔ Reads s W pm d := by
  constructor
  · intro h
    have hlen : s.length = frameLength W pm := by
      by_contra hne
      simp [decodeFrame_shape.mpr hne] at h
    rw [decodeFrame_ok hlen] at h
    cases h
    exact ⟨hlen, rfl, by rw [framingError, stopIndex_eq], parityError_eq_xorReduce hlen⟩
  · rintro ⟨hlen, hvalue, hfe, hpe⟩
    have hpe' := parityError_eq_xorReduce hlen
    rw [← hpe, afterStart] at hpe'
    rw [decodeFrame_ok hlen, hpe', framingError, stopIndex_eq, ← hfe, ← afterStart, ← hvalue]

theorem exists_reads (h : s.length = frameLength W pm) : ∃ d, Reads s W pm d :=
  ⟨_, decodeFrame_eq_ok_iff.mp (decodeFrame_ok h)⟩

theorem Reads.lt_length (h : Reads s W pm d) : 1 + (W + pm.count) < s.length := by
  rw [h.length, frameLength]; omega

/-! #### What the results depend on -/

section
variable {d' : Decoded}

/-- FE depends on the last bit alone (40 R109). -/
theorem Reads.fe_congr (h : Reads s W pm d) (h' : Reads s' W pm d')
    (hstop : s[s.length - 1]? = s'[s'.length - 1]?) : d.fe = d'.fe := by
  rw [h.length, h'.length, stopIndex_eq] at hstop
  rw [h.fe, h'.fe, hstop]

/-- PE depends on the data and parity bits alone (40 R109). -/
theorem Reads.pe_congr (h : Reads s W pm d) (h' : Reads s' W pm d')
    (hbits : ∀ k, 1 ≤ k → k ≤ W + pm.count → s[k]? = s'[k]?) : d.pe = d'.pe := by
  rw [h.pe, h'.pe, afterStart_congr hbits]

/-- The value depends on the data bits alone (40 R109). -/
theorem Reads.value_congr (h : Reads s W pm d) (h' : Reads s' W pm d')
    (hbits : ∀ k, 1 ≤ k → k ≤ W → s[k]? = s'[k]?) : d.value = d'.value := by
  rw [h.value, h'.value, afterStart_congr hbits]

/-- The start bit is not read (40 R110). -/
theorem Reads.change_start {b : Bit} (b' : Bit) (h : Reads (b :: s) W pm d) : Reads (b' :: s) W pm d where
  length := h.length
  value := h.value
  fe := by simpa only [Nat.add_comm 1, List.getElem?_cons_succ] using h.fe
  pe := h.pe

end

/-! #### Inverted bits -/

/-- 40 R107: a data bit inverted in any well-shaped sequence changes the value in that bit, and PE under parity. -/
theorem Reads.modify_data (h : Reads s W pm d) (hi : i < W) (hpm : pm ≠ .none) :
    Reads (s.modify (1 + i) not) W pm { value := d.value ^^^ 2 ^ i, fe := d.fe, pe := !d.pe } := by
  have hlen := h.lt_length
  refine ⟨by rw [List.length_modify, h.length], ?value, ?fe, ?pe⟩
  case value =>
    rw [afterStart_modify, valueOf_modify_not (by rwa [afterStart_length (by omega)]), h.value]
  case fe => rw [List.getElem?_modify_ne _ _ (by omega), h.fe]
  case pe =>
    rw [afterStart_modify, xorReduce_modify_not (by rw [afterStart_length (by omega)]; omega), h.pe]
    simp [hpm]

/-- 40 R107: the parity bit inverted in any well-shaped sequence changes PE alone. -/
theorem Reads.modify_parity (h : Reads s W pm d) (hpm : pm ≠ .none) :
    Reads (s.modify (1 + W) not) W pm { d with pe := !d.pe } := by
  have hlen := h.lt_length
  have hcount := parityCount_eq_one hpm
  refine ⟨by rw [List.length_modify, h.length], ?value, ?fe, ?pe⟩
  case value =>
    rw [afterStart_modify, List.modify_eq_self (afterStart_length (by omega)).le, h.value]
  case fe => rw [List.getElem?_modify_ne _ _ (by omega), h.fe]
  case pe =>
    rw [afterStart_modify, xorReduce_modify_not (by rw [afterStart_length (by omega)]; omega), h.pe]
    simp [hpm]

/-- 40 R108: the last bit inverted in any well-shaped sequence changes FE alone. -/
theorem Reads.modify_stop (h : Reads s W pm d) :
    Reads (s.modify (1 + (W + pm.count)) not) W pm { d with fe := !d.fe } := by
  have hlen := h.lt_length
  refine ⟨by rw [List.length_modify, h.length], ?value, ?fe, ?pe⟩
  case value => rw [afterStart_modify, List.modify_eq_self (by rw [afterStart_length] <;> omega), h.value]
  case fe =>
    rw [List.getElem?_modify_eq, h.fe, List.getElem?_eq_getElem hlen]
    cases s[1 + (W + pm.count)] <;> rfl
  case pe => rw [afterStart_modify, List.modify_eq_self (afterStart_length (by omega)).le, h.pe]

/-- 40 R111: what any mask of inverted bits does to the value and to PE. -/
theorem Reads.xor_mask {d' : Decoded} (h : Reads s W pm d) (hm : m.length = s.length)
    (h' : Reads (List.zipWith xor s m) W pm d') :
    d'.value = d.value ^^^ valueOf (afterStart W m) ∧
      d'.pe = (d.pe ^^ (decide (pm ≠ .none) && xorReduce (afterStart (W + pm.count) m))) := by
  have hlen := h.lt_length
  have heq : ∀ n ≤ W + pm.count, (afterStart n s).length = (afterStart n m).length := fun n hn => by
    rw [afterStart_length (by omega), afterStart_length (by omega)]
  constructor
  · rw [h'.value, afterStart_zipWith, valueOf_zipWith_xor (heq W (by omega)), h.value]
  · rw [h'.pe, afterStart_zipWith, xorReduce_zipWith_xor (heq _ le_rfl), h.pe, Bool.xor_right_comm,
      Bool.and_xor_distrib_left]

/-! #### A sent frame -/

/-- A sent frame as the decoder reads it. -/
theorem reads_encodeFrame (h : v < 2 ^ W) :
    Reads (encodeFrame v W pm) W pm { value := v, fe := false, pe := false } := by
  rw [← decodeFrame_eq_ok_iff, decodeFrame_encodeFrame, Nat.mod_eq_of_lt h]

/-- With parity, the data and parity bits of a sent frame have the mode's XOR, since the frame reads PE = 0. -/
theorem xorReduce_encodeFrame (hpm : pm ≠ .none) :
    xorReduce (afterStart (W + 1) (encodeFrame v W pm)) = decide (pm = .odd) := by
  have hpe := (decodeFrame_eq_ok_iff.mp (decodeFrame_encodeFrame v W pm)).pe
  simpa [hpm, parityCount_eq_one hpm] using hpe.symm

end

/-- Settles O25: `decodeFrame_encodeFrame`, and truncation keeps a value below 2^W. -/
theorem sentFrameDecodesToItsValue : Obligations.SentFrameDecodesToItsValue := by
  intro v W pm _
  have h := decodeFrame_encodeFrame v W pm
  exact ⟨h, fun hv => by rwa [Nat.mod_eq_of_lt hv] at h⟩

/-- Settles O23: the data field, the parity field and the stop bit of `encodeFrame`, index by index. -/
theorem sentFrameLayout : Obligations.SentFrameLayout := by
  intro v W pm s P
  have hlen : s.length = 2 + W + P := (encodeFrame_length v W pm).trans (frameLength_eq W pm)
  refine ⟨hlen, rfl, fun i hi => ?data, encodeFrame_parity, ?stop⟩
  case data =>
    rw [← afterStart_getElem? hi, afterStart, encodeFrame_data, dataBits_getElem? hi, trunc,
      Nat.testBit_mod_two_pow, ← Nat.testBit_eq_decide_div_mod_eq]
    simp [hi]
  case stop =>
    have hlast : W + 1 + P = frameLength W pm - 1 := by rw [frameLength_eq]; omega
    rw [hlast]
    exact encodeFrame_stop

/-- Settles O24: the shape check, then the fields of `decodeFrame_ok` one by one. -/
theorem decodeFrameReadsTheFields : Obligations.DecodeFrameReadsTheFields := by
  intro s W pm L
  have hL : frameLength W pm = L := frameLength_eq W pm
  refine ⟨fun h => decodeFrame_shape.mpr (hL ▸ h), fun h => ?_⟩
  have hshape : s.length = frameLength W pm := h.trans hL.symm
  have hok := decodeFrame_ok hshape
  refine ⟨_, hok, ?sum, decodeFrame_value_lt hok, ?fe, fun hpm => ?pe, fun hpm => ?none⟩
  case sum => exact valueOf_afterStart (by rw [hshape, frameLength]; omega)
  case fe => simp [framingError, hL]
  case pe => simp [parityError_of_parity hpm]
  case none => rw [hpm]; rfl

/-- Settles O26: the flips of `Reads.modify_data` and `Reads.modify_parity` in a sent frame. -/
theorem oneFlippedBitIsAParityError : Obligations.OneFlippedBitIsAParityError := by
  intro v W pm _ hv hpm
  have hsent := reads_encodeFrame (pm := pm) hv
  refine ⟨fun i hi => decodeFrame_eq_ok_iff.mpr (hsent.modify_data hi hpm), ?_⟩
  rw [Nat.add_comm W 1]
  exact decodeFrame_eq_ok_iff.mpr (hsent.modify_parity hpm)

/-- Settles O27: with the stop bit 1 the sequence reads FE = 0, which the flip inverts. -/
theorem flippedStopBitIsAFramingError : Obligations.FlippedStopBitIsAFramingError := by
  intro s W pm L _ hlen hstop
  obtain ⟨d, hd⟩ := exists_reads (hlen.trans (frameLength_eq W pm).symm)
  have hlast : L - 1 = 1 + (W + pm.count) := by rw [← stopIndex_eq, frameLength_eq]
  rw [hlast] at hstop ⊢
  have hfe : d.fe = false := by simp [hd.fe, hstop]
  refine ⟨d, decodeFrame_eq_ok_iff.mpr hd, decodeFrame_eq_ok_iff.mpr ?_⟩
  simpa [hfe] using hd.modify_stop

/-- Settles O28: `Reads` names the bits that each result depends on, and none of them is the start bit. -/
theorem errorChecksAreIndependent : Obligations.ErrorChecksAreIndependent := by
  refine ⟨fun s s' W pm d d' h h' => ?own, fun v W i pm hv hi hpm => ?both, fun b b' s W pm _ => ?start⟩
  case own =>
    rw [decodeFrame_eq_ok_iff] at h h'
    have hcount : pm.count ≤ 1 := by cases pm <;> decide
    exact ⟨h.fe_congr h', fun hbits => h.pe_congr h' fun k hk hle => hbits k hk (by omega), h.value_congr h'⟩
  case both =>
    have hlast : W + 2 = 1 + (W + pm.count) := by rw [parityCount_eq_one hpm]; omega
    rw [hlast]
    exact decodeFrame_eq_ok_iff.mpr ((reads_encodeFrame hv).modify_data hi hpm).modify_stop
  case start =>
    by_cases hlen : (b :: s).length = frameLength W pm
    · obtain ⟨d, hd⟩ := exists_reads hlen
      rw [decodeFrame_eq_ok_iff.mpr hd, decodeFrame_eq_ok_iff.mpr (hd.change_start b')]
    · rw [decodeFrame_shape.mpr hlen, (decodeFrame_shape (s := b' :: s)).mpr hlen]

/-- Settles O29: the mask's own parity is 0, and its data bits make a number other than 0. -/
theorem evenNumberOfFlipsIsUndetected : Obligations.EvenNumberOfFlipsIsUndetected := by
  intro v W pm m _ hv hpm hm hones
  have heven : (afterStart (W + 1) m).count true % 2 = 0 := hones
  have hsent := reads_encodeFrame (pm := pm) hv
  have hcount := parityCount_eq_one hpm
  have hlen : m.length = (encodeFrame v W pm).length := by
    rw [hm, hsent.length, frameLength, hcount]; omega
  obtain ⟨d, hd⟩ : ∃ d, Reads (List.zipWith xor (encodeFrame v W pm) m) W pm d :=
    exists_reads (by rw [List.length_zipWith, hlen, min_self, hsent.length])
  obtain ⟨hvalue, hpe⟩ := hsent.xor_mask hlen hd
  refine ⟨d, decodeFrame_eq_ok_iff.mpr hd, ?pe, ?value⟩
  case pe =>
    have hmask : xorReduce (afterStart (W + 1) m) = false := by
      simp [xorReduce_eq_odd_count, heven]
    simp [hpe, hcount, hmask]
  case value =>
    rintro ⟨i, hi, hbit⟩ hsame
    have hxor : v ^^^ valueOf (afterStart W m) = v ^^^ 0 := by rw [Nat.xor_zero, ← hvalue, hsame]
    exact valueOf_ne_zero (afterStart_getElem? hi ▸ hbit) (Nat.xor_right_inj.mp hxor)

/-- Settles O30: the count of ones through the XOR. -/
theorem sentFrameOnesMatchTheMode : Obligations.SentFrameOnesMatchTheMode := by
  intro v W
  have heven := xorReduce_encodeFrame (v := v) (W := W) (pm := .even) (by decide)
  have hodd := xorReduce_encodeFrame (v := v) (W := W) (pm := .odd) (by decide)
  rw [xorReduce_eq_odd_count] at heven hodd
  exact ⟨show (afterStart (W + 1) _).count true % 2 = 0 by simpa using heven,
    show (afterStart (W + 1) _).count true % 2 = 1 by simpa using hodd⟩

end Sys2Proof.Machine
end

section
namespace Sys2Proof.Machine

/-! ### The codec's commands -/

section
variable {s : State}

theorem exec_decode_of_shape (hv : s.cfgValid = true) (hd : decodeFrame s.pins.frameIn s.cfg.w s.cfg.pm = .shape) :
    exec .decode s = .next (complete 0x3 .invalidFrameShape s) := by
  simp only [exec, execDecode, guarded_of_valid _ _ hv, hd, encode, raise]

end

/-- Settles O12: the guard's two sides. -/
theorem encodeWritesTheFrame : Obligations.EncodeWritesTheFrame :=
  fun _ => ⟨guarded_of_invalid _ _, exec_encode_of_valid⟩

/-- Settles O13: the guard, then the decoder's shape check. -/
theorem decodeWritesTheTripleOrRefusesTheShape : Obligations.DecodeWritesTheTripleOrRefusesTheShape := by
  intro s L
  have hL : frameLength s.cfg.w s.cfg.pm = L := frameLength_eq _ _
  refine ⟨guarded_of_invalid _ _, fun hv hlen => ?refused, fun hv hlen => ?decoded⟩
  case refused => exact exec_decode_of_shape hv (decodeFrame_shape.mpr (hL ▸ hlen))
  case decoded =>
    have hok := decodeFrame_ok (hlen.trans hL.symm)
    exact ⟨_, hok, exec_decode_of_ok hv hok⟩

/-- Settles O14: the guard's two sides. -/
theorem calcParityWritesTheParityBit : Obligations.CalcParityWritesTheParityBit :=
  fun _ => ⟨guarded_of_invalid _ _, guarded_of_valid _ _⟩

end Sys2Proof.Machine
end

section
/-! The serial channel: one trial, one bit step, and TRANSMIT and RECEIVE from their acceptance to their completion
(41 R130 to R144). -/

namespace Sys2Proof.Machine

/-! ### The bit steps -/

section
variable {s : State} {g : Bit} {drawn : List RndAnswer}

/-- The injector answers `g` at this step and consumes `drawn` (41 R132): nothing with INJ = 0, the answer on the port
with INJ = 1. -/
def Trial (s : State) (g : Bit) (drawn : List RndAnswer) : Prop :=
  (s.cfg.inj = false ∧ g = false ∧ drawn = []) ∨
    ∃ u, s.cfg.inj = true ∧ s.pins.rndAns = some (.prob u) ∧ 0 ≤ u ∧ u < 1 ∧
      g = decide (u < s.cfg.prob) ∧ drawn = [.prob u]

theorem injectTrial_of_trial (h : Trial s g drawn) (k : Bit → State → Result) :
    injectTrial s k = k g { s with rndTaken := s.rndTaken ++ drawn } := by
  rcases h with ⟨hinj, rfl, rfl⟩ | ⟨u, hinj, hans, hnonneg, hlt, rfl, rfl⟩
  · simp [injectTrial, hinj]
  · simp [injectTrial, drawProb, takeAnswer, hinj, hans, hnonneg, hlt]

/-- A transmit bit step whose trial is answered sends its bit (41 R131, R133). -/
theorem txBitStep_of_trial {buf wire : BitSeq} {trace : List Seconds} {b : Bit} (last : State → State)
    (hbuf : s.txBuf = some buf) (hwire : s.txWire = some wire) (htrace : s.txTrace = some trace)
    (hbit : buf[s.bitIdx]? = some b) (hbaud : 1 ≤ s.cfg.baud) (htrial : Trial s g drawn) :
    txBitStep last s =
      .next (if s.bitIdx + 1 = buf.length
        then last (txWritten s { s with rndTaken := s.rndTaken ++ drawn } wire trace b g)
        else txWritten s { s with rndTaken := s.rndTaken ++ drawn } wire trace b g) := by
  refine txBitStep_eq_next.mpr ⟨buf, wire, trace, b, hbuf, hwire, htrace, hbit, by omega, .inr ⟨g, _, ?_, rfl⟩⟩
  rcases htrial with ⟨hinj, hg, rfl⟩ | ⟨u, hinj, hans, hnonneg, hlt, hg, rfl⟩
  · exact .inl ⟨hinj, hg, by rw [List.append_nil]⟩
  · exact .inr ⟨u, hinj, hans, ⟨hnonneg, hlt⟩, hg, rfl⟩

/-- A receive bit step copies its bit; the last one also reads the clock (41 R141 to R143). -/
theorem rxBitStep_of_bit {buf seq : BitSeq} {b : Bit} (last : State → State) (hbuf : s.rxBuf = some buf)
    (hseq : s.rxSeq = some seq) (hbit : buf[s.bitIdx]? = some b) (hbaud : 1 ≤ s.cfg.baud) :
    rxBitStep last s =
      .next (if s.bitIdx + 1 = buf.length then last (drawElapsed (rxWritten s seq b)) else rxWritten s seq b) :=
  rxBitStep_eq_next.mpr ⟨buf, seq, b, hbuf, hseq, hbit, by omega, rfl⟩

theorem phaseStep_tx (hp : s.phase = .tx) : phaseStep s = txBitStep (complete 0x5 .ok) s := by
  rw [phaseStep, hp]; rfl

theorem phaseStep_rTx (hp : s.phase = .rTx) : phaseStep s = txBitStep (goto .rRxBegin) s := by
  rw [phaseStep, hp]; rfl

theorem phaseStep_rx (hp : s.phase = .rx) : phaseStep s = rxBitStep (complete 0x6 .ok) s := by
  rw [phaseStep, hp]; rfl

theorem phaseStep_rRx (hp : s.phase = .rRx) : phaseStep s = rxBitStep (goto .rDecode) s := by
  rw [phaseStep, hp]; rfl

end

/-- Settles O31: the trial's two cases; at PROB = 0 no answer is below PROB, and at PROB = 1 every answer is. -/
theorem injectionTrialComparesWithProb : Obligations.InjectionTrialComparesWithProb := by
  intro s k
  refine ⟨fun hinj => by simp [injectTrial, hinj], ?_⟩
  intro u hinj hans hnonneg hlt s'
  have htrial : injectTrial s k = k (decide (u < s.cfg.prob)) s' :=
    injectTrial_of_trial (.inr ⟨u, hinj, hans, hnonneg, hlt, rfl, rfl⟩) k
  have hflip (h : u < s.cfg.prob) : injectTrial s k = k true s' := by rw [htrial, decide_eq_true h]
  have hkeep (h : ¬ u < s.cfg.prob) : injectTrial s k = k false s' := by rw [htrial, decide_eq_false h]
  exact ⟨hflip, hkeep, fun h => hkeep (by rw [h]; exact hnonneg.not_gt), fun h => hflip (by rwa [h])⟩

/-- Settles O32: the bit step of `txBitStep_of_trial`, in the phase's own form. -/
theorem transmitBitStepSendsOneBit : Obligations.TransmitBitStepSendsOneBit := by
  intro s buf wire trace b g drawn hrst hbusy hphase hbuf hwire htrace hbit hbaud htrial sent
  have hstep (last : State → State) := txBitStep_of_trial last hbuf hwire htrace hbit hbaud htrial
  refine ⟨fun hmore => ?more, fun hlast hp => ?completes, fun hlast hp => ?goesOn⟩
  case more =>
    refine step_of_inProgress hrst hbusy ?_
    rcases hphase with hp | hp
    · rw [phaseStep_tx hp, hstep, if_neg hmore]; rfl
    · rw [phaseStep_rTx hp, hstep, if_neg hmore]; rfl
  case completes => exact step_of_inProgress hrst hbusy (by rw [phaseStep_tx hp, hstep, if_pos hlast]; rfl)
  case goesOn => exact step_of_inProgress hrst hbusy (by rw [phaseStep_rTx hp, hstep, if_pos hlast]; rfl)

/-- Settles O33: the bit step of `rxBitStep_of_bit`, in the phase's own form. -/
theorem receiveBitStepCopiesOneBit : Obligations.ReceiveBitStepCopiesOneBit := by
  intro s buf seq b hrst hbusy hphase hbuf hseq hbit hbaud copied timed
  have hstep (last : State → State) := rxBitStep_of_bit last hbuf hseq hbit hbaud
  refine ⟨fun hmore => ?more, fun hlast hp => ?completes, fun hlast hp => ?goesOn⟩
  case more =>
    refine step_of_inProgress hrst hbusy ?_
    rcases hphase with hp | hp
    · rw [phaseStep_rx hp, hstep, if_neg hmore]; rfl
    · rw [phaseStep_rRx hp, hstep, if_neg hmore]; rfl
  case completes => exact step_of_inProgress hrst hbusy (by rw [phaseStep_rx hp, hstep, if_pos hlast]; rfl)
  case goesOn => exact step_of_inProgress hrst hbusy (by rw [phaseStep_rRx hp, hstep, if_pos hlast]; rfl)

end Sys2Proof.Machine
end

section
namespace Sys2Proof.Machine

/-! ### TRANSMIT and RECEIVE from acceptance to completion -/

section
variable {s u : State} {c : Cfg} {f : BitSeq} {us : List Rat} {k n : Nat}

/-- A sequence of states that steps lead through is what a run answers. -/
theorem run_of_forall_step {σ : Nat → State} (h : ∀ k < n, step (σ k) = .next (σ (k + 1))) :
    Host.Core.run core n (σ 0) = .next (σ n) := by
  induction n with
  | zero => rfl
  | succ n ih => exact run_succ_of_run (ih fun k hk => h k (by omega)) (h n (by omega))

theorem portsAt_succ_of_lt (h : k < s.script.length) : portsAt (k + 1) s = s.script[k] := by
  simp [portsAt, h]

/-- The ports serve the answers `as`, one per step from this step on. -/
def Served (as : List (Option RndAnswer)) (s : State) : Prop := ∀ k a, as[k]? = some a → Serves (portsAt k s) a

/-- Answers that stand in the script are served from the next step on (log 2). -/
theorem served_tick_of_forall₂ {as : List (Option RndAnswer)} (h : List.Forall₂ Serves (s.script.take n) as) :
    Served as (tick s) := by
  intro k a ha
  obtain ⟨hlen, hserves⟩ := List.forall₂_iff_get.mp h
  obtain ⟨hk, rfl⟩ := List.getElem?_eq_some_iff.mp ha
  have hk' : k < (s.script.take n).length := hlen ▸ hk
  have hport : portsAt k (tick s) = (s.script.take n)[k] := by
    rw [portsAt_tick, portsAt_succ_of_lt (hk'.trans_le (List.length_take_le' _ _)), List.getElem_take]
  exact hport ▸ hserves k hk' hk

/-! #### The trials of a frame -/

theorem trialsFor_of_inj (hinj : c.inj = true) :
    TrialsFor c n us ↔ us.length = n ∧ ∀ u ∈ us, 0 ≤ u ∧ u < 1 := by
  simp [TrialsFor, hinj]

theorem trialsFor_of_noInjection (hinj : c.inj = false) : TrialsFor c n us ↔ us = [] := by
  simp [TrialsFor, hinj]

theorem take_of_trialsFor (h : TrialsFor c n us) : us.take n = us := by
  cases hinj : c.inj with
  | false => simp [(trialsFor_of_noInjection hinj).mp h]
  | true =>
    obtain ⟨hlen, -⟩ := (trialsFor_of_inj hinj).mp h
    exact List.take_of_length_le hlen.le

theorem trialAnswers_length (h : TrialsFor c n us) : (trialAnswers c n us).length = n := by
  cases hinj : c.inj with
  | false => simp [trialAnswers, hinj]
  | true =>
    obtain ⟨hlen, -⟩ := (trialsFor_of_inj hinj).mp h
    simp [trialAnswers, hinj, hlen]

theorem wireOf_length (h : TrialsFor c f.length us) : (wireOf c f us).length = f.length := by
  cases hinj : c.inj with
  | false => simp [wireOf, hinj]
  | true =>
    obtain ⟨hlen, -⟩ := (trialsFor_of_inj hinj).mp h
    simp [wireOf, hinj, hlen]

/-- The trial of bit `k`, when its answer is served, adds its bit to the wire sequence and its draw to the draws
(41 R132, R134). -/
theorem exists_trial (hus : TrialsFor s.cfg f.length us) (hk : k < f.length)
    (hserve : ∀ a, (trialAnswers s.cfg f.length us)[k]? = some a → Serves s.pins a) :
    ∃ g drawn, Trial s g drawn ∧
      (wireOf s.cfg f us).take (k + 1) = (wireOf s.cfg f us).take k ++ [f[k] ^^ g] ∧
      (us.take (k + 1)).map .prob = (us.take k).map .prob ++ drawn := by
  cases hinj : s.cfg.inj with
  | false =>
    obtain rfl : us = [] := (trialsFor_of_noInjection hinj).mp hus
    exact ⟨false, [], .inl ⟨hinj, rfl, rfl⟩, by simp [wireOf, hinj], by simp⟩
  | true =>
    obtain ⟨hlen, hrange⟩ := (trialsFor_of_inj hinj).mp hus
    have hk' : k < us.length := hlen ▸ hk
    obtain ⟨-, hans⟩ := hserve (some (.prob us[k])) (by simp [trialAnswers, hinj, hk'])
    obtain ⟨hnonneg, hlt⟩ := hrange us[k] (List.getElem_mem hk')
    refine ⟨_, _, .inr ⟨us[k], hinj, hans _ rfl, hnonneg, hlt, rfl, rfl⟩, ?_, ?_⟩
    · rw [List.take_succ_eq_append_getElem (by rwa [wireOf_length hus])]
      simp [wireOf, hinj]
    · rw [List.take_succ_eq_append_getElem hk', List.map_append]
      rfl

/-- `s` after the first `k` bits of the wire sequence `wire` went out with the first `k` of the trials `us`
(41 R131). -/
def sentTrials (wire : BitSeq) (us : List Rat) (k : Nat) (s : State) : State :=
  { sentPrefix wire k s with rndTaken := s.rndTaken ++ (us.take k).map .prob }

/-- A transmit bit step under the trials of its frame, in TRANSMIT and in RUN (41 R131, 42 R169). -/
theorem txBitStep_sentTrials (last : State → State) (hbuf : s.txBuf = some f) (hbaud : 1 ≤ s.cfg.baud)
    (hus : TrialsFor s.cfg f.length us) (hk : k < f.length)
    (hserve : ∀ a, (trialAnswers s.cfg f.length us)[k]? = some a → Serves s.pins a) :
    txBitStep last (sentTrials (wireOf s.cfg f us) us k s) =
      .next (if k + 1 = f.length then last (sentTrials (wireOf s.cfg f us) us (k + 1) s)
        else sentTrials (wireOf s.cfg f us) us (k + 1) s) := by
  obtain ⟨g, drawn, htrial, hwire, hdrawn⟩ := exists_trial hus hk hserve
  have hlen : ((wireOf s.cfg f us).take k).length = k := by simp [wireOf_length hus]; omega
  have hbit := txBitStep_of_trial (s := sentTrials (wireOf s.cfg f us) us k s) last hbuf rfl rfl
    (List.getElem?_eq_getElem hk) hbaud htrial
  rw [hbit]
  simp only [txWritten, sentTrials, sentPrefix, hwire, hdrawn, bitEvents_concat, hlen, List.replicate_succ',
    List.append_assoc]

/-! #### TRANSMIT with or without injection -/

/-- A TRANSMIT of `f` after `k` bit steps, the last of which completes it (41 R134). -/
def trialStage (f : BitSeq) (us : List Rat) (k : Nat) (s : State) : State :=
  if k = f.length then complete 0x5 .ok (sentTrials (wireOf s.cfg f us) us k s)
  else sentTrials (wireOf s.cfg f us) us k s

/-- What a TRANSMIT of `f` in progress under the trials `us` reads besides its own progress and the ports. -/
structure TrialTransmit (f : BitSeq) (us : List Rat) (s : State) : Prop where
  busy : s.busy = true
  phase : s.phase = .tx
  txBuf : s.txBuf = some f
  baud : 1 ≤ s.cfg.baud
  trials : TrialsFor s.cfg f.length us

theorem tick_trialStage (f : BitSeq) (us : List Rat) (k : Nat) (s : State) :
    tick (trialStage f us k s) = trialStage f us k (tick s) := by
  unfold trialStage; split <;> rfl

theorem TrialTransmit.step (h : TrialTransmit f us s) (hk : k < f.length)
    (hserve : ∀ a, (trialAnswers s.cfg f.length us)[k]? = some a → Serves s.pins a) :
    step (trialStage f us k s) = .next (trialStage f us (k + 1) (tick s)) := by
  obtain ⟨hrst, -⟩ := hserve _ (List.getElem?_eq_getElem ((trialAnswers_length h.trials).symm ▸ hk))
  rw [← tick_trialStage, trialStage, if_neg hk.ne]
  refine step_of_inProgress hrst h.busy ?_
  rw [phaseStep_tx (by exact h.phase), txBitStep_sentTrials _ h.txBuf h.baud h.trials hk hserve]
  rfl

/-- A TRANSMIT whose trials are served goes through its bits in one step each (41 R134). -/
theorem TrialTransmit.run (h : TrialTransmit f us u) (hserved : Served (trialAnswers u.cfg f.length us) u) :
    Host.Core.run core f.length (trialStage f us 0 u) = .next (trialStage f us f.length (tick^[f.length] u)) := by
  refine run_of_forall_step (σ := fun k => trialStage f us k (tick^[k] u)) fun k hk => ?_
  have hready : TrialTransmit f us (tick^[k] u) := by rw [iterate_tick_eq]; exact { h with }
  rw [Function.iterate_succ_apply']
  refine hready.step hk ?_
  rw [iterate_tick_eq]
  exact hserved k

end

/-- Settles O15: the guard passes, and the frame is empty or not. -/
theorem transmitLatchesTheFrame : Obligations.TransmitLatchesTheFrame := by
  intro s hv latched
  have hexec : exec .transmit s =
      if s.pins.frameIn.length = 0 then .next (complete 0x5 .ok latched) else .next (begin .transmit .tx latched) :=
    guarded_of_valid _ _ hv
  exact ⟨fun hnil => hexec.trans (if_pos (by simp [hnil])), fun hne => hexec.trans (if_neg (by simpa using hne))⟩

/-- Settles O16: the guard passes, and the sequence is empty or not. -/
theorem receiveLatchesTheSequence : Obligations.ReceiveLatchesTheSequence := by
  intro s hv latched
  have hexec : exec .receive s =
      if s.pins.frameIn.length = 0 then .next (complete 0x6 .ok (drawElapsed latched))
      else .next (begin .receive .rx latched) :=
    guarded_of_valid _ _ hv
  exact ⟨fun hnil => hexec.trans (if_pos (by simp [hnil])), fun hne => hexec.trans (if_neg (by simpa using hne))⟩

section
variable {s : State} {us : List Rat}

/-- The acceptance of TRANSMIT, whether or not its frame is empty (41 R130). -/
theorem exec_transmit_trialStage (us : List Rat) (hv : s.cfgValid = true) :
    exec .transmit s =
      .next (trialStage s.pins.frameIn us 0 (begin .transmit .tx { s with txBuf := some s.pins.frameIn })) := by
  obtain ⟨hempty, hbegun⟩ := transmitLatchesTheFrame s hv
  by_cases hnil : s.pins.frameIn = []
  · rw [hempty hnil]
    simp [trialStage, hnil, complete, begin, sentTrials, sentPrefix, bitEvents]
  · rw [hbegun hnil]
    simp [trialStage, hnil, eq_comm (a := 0), begin, sentTrials, sentPrefix, bitEvents]

/-- The acceptance of RECEIVE, whether or not its sequence is empty (41 R140). -/
theorem exec_receive_receiveStage (hv : s.cfgValid = true) :
    exec .receive s =
      .next (receiveStage s.pins.frameIn 0 (begin .receive .rx { s with rxBuf := some s.pins.frameIn })) := by
  by_cases hnil : s.pins.frameIn = []
  · obtain ⟨hempty, -⟩ := receiveLatchesTheSequence s hv
    rw [hempty hnil, hnil]
    rfl
  · exact exec_receive_of_ne_nil hv hnil

end

/-- Settles O34: the acceptance step leaves stage 0 of the frame, and each bit step leaves the next one. -/
theorem transmitCompletesAfterOneStepPerBit : Obligations.TransmitCompletesAfterOneStepPerBit := by
  intro s us n hrst hidle hoffer hop hv hbaud hus hserves
  have haccept := step_of_accepted hrst hidle hoffer (hop ▸ decode_encode .transmit) (exec_transmit_trialStage us hv)
  have hready : TrialTransmit s.pins.frameIn us (tick (begin .transmit .tx { s with txBuf := some s.pins.frameIn })) :=
    ⟨rfl, rfl, rfl, hbaud, hus⟩
  have hrun := hready.run (served_tick_of_forall₂ hserves)
  have hlen : (wireOf s.cfg s.pins.frameIn us).length = n := wireOf_length hus
  rw [Nat.add_comm, run_succ_of_step haccept, tick_trialStage, hrun, iterate_tick_eq, trialStage, if_pos rfl]
  refine ⟨_, rfl, rfl, rfl, rfl, rfl, rfl, rfl, ?wire, hlen, rfl, ?events, ?draws, rfl, rfl, rfl, rfl, rfl, rfl, rfl⟩
  case wire => exact congrArg some (List.take_of_length_le hlen.le)
  case events => exact congrArg (s.ev ++ bitEvents ·) (List.take_of_length_le hlen.le)
  case draws => exact congrArg (s.rndTaken ++ List.map .prob ·) (take_of_trialsFor hus)

/-- Settles O35: the stages of RECEIVE, the last of which has copied the whole sequence. -/
theorem receiveCopiesTheWholeSequence : Obligations.ReceiveCopiesTheWholeSequence := by
  intro s n hrst hidle hoffer hop hv hbaud hscript hnoReset
  have hports : NoResetFor (1 + n) s := by
    intro j hj
    cases j with
    | zero => exact hrst
    | succ j =>
      have hj' : j < s.script.length := by omega
      rw [portsAt_succ_of_lt hj']
      exact hnoReset _ (List.mem_take_iff_getElem.mpr ⟨j, by omega, rfl⟩)
  have hrun := (stages_receive s.pins.frameIn).run_accepted hidle hoffer (hop ▸ decode_encode .receive)
    (exec_receive_receiveStage hv) ⟨rfl, rfl, rfl, Nat.one_le_iff_ne_zero.mp hbaud⟩ ⟨rfl, rfl⟩ hports
  rw [hrun, iterate_tick_eq, receiveStage, if_pos rfl]
  exact ⟨_, rfl, rfl, rfl, rfl, rfl, rfl, rfl, congrArg some (List.take_of_length_le le_rfl), rfl, rfl, rfl, rfl, rfl,
    rfl, rfl, rfl, rfl, rfl⟩

end Sys2Proof.Machine
end

section
namespace Sys2Proof.Machine

/-! ### Consumed answers -/

section
variable {s t : State}

/-- The draws are kept, or the one that the step asked for was answered in range and appended (10 R35, R38). -/
def DrawsKeptOrAnswered (s t : State) : Prop :=
  t.rndTaken = s.rndTaken ∨
    ∃ r a, rndReq s = some r ∧ s.pins.rndAns = some a ∧ a.fits r ∧ t.rndTaken = s.rndTaken ++ [a]

/-- A transmit bit step consumes nothing but its trial (41 R132). -/
theorem rndTaken_of_txBitStep {last : State → State} (hlast : ∀ w, (last w).rndTaken = w.rndTaken)
    (h : txBitStep last s = .next t) :
    t.rndTaken = s.rndTaken ∨
      ∃ u, s.cfg.inj = true ∧ s.pins.rndAns = some (.prob u) ∧ (0 ≤ u ∧ u < 1) ∧
        t.rndTaken = s.rndTaken ++ [.prob u] := by
  obtain ⟨buf, wire, trace, b, -, -, -, -, -, ⟨-, -, rfl⟩ | ⟨g, s₁, htrial, rfl⟩⟩ := txBitStep_eq_next.mp h
  · exact .inl rfl
  · have htaken : (if s.bitIdx + 1 = buf.length then last (txWritten s s₁ wire trace b g)
        else txWritten s s₁ wire trace b g).rndTaken = s₁.rndTaken := by
      split
      · exact hlast _
      · rfl
    rcases htrial with ⟨-, -, rfl⟩ | ⟨u, hinj, hans, hu, -, rfl⟩
    · exact .inl htaken
    · exact .inr ⟨u, hinj, hans, hu, htaken⟩

/-- The trial of a transmit bit step is what TX and R_TX ask for (41 R132, 42 R169). -/
theorem drawsKeptOrAnswered_of_sending (hbusy : s.busy = true) (hp : s.phase = .tx ∨ s.phase = .rTx)
    (h : phaseStep s = .next t) : DrawsKeptOrAnswered s t := by
  obtain ⟨last, heq, hlast⟩ : ∃ last, phaseStep s = txBitStep last s ∧ ∀ w, (last w).rndTaken = w.rndTaken := by
    rcases hp with hp | hp
    · exact ⟨_, phaseStep_tx hp, fun _ => rfl⟩
    · exact ⟨_, phaseStep_rTx hp, fun _ => rfl⟩
  refine (rndTaken_of_txBitStep hlast (heq ▸ h)).imp id fun ⟨u, hinj, hans, hu, happ⟩ =>
    ⟨.prob, .prob u, ?_, hans, hu, happ⟩
  rcases hp with hp | hp <;> simp [rndReq, hbusy, hp, hinj]

/-- A command in progress consumes the trials of its bits and its payload draws (41 R132, 42 R165). -/
theorem drawsKeptOrAnswered_of_phaseStep (hbusy : s.busy = true) (h : phaseStep s = .next t) :
    DrawsKeptOrAnswered s t := by
  cases busyStep_of_phaseStep h with
  | bitSent hp => exact drawsKeptOrAnswered_of_sending hbusy hp h
  | lastBitSent hp => exact drawsKeptOrAnswered_of_sending hbusy (.inl hp) h
  | frameSent hp => exact drawsKeptOrAnswered_of_sending hbusy (.inr hp) h
  | payloadDrawn hp hans hv => exact .inr ⟨.value s.cfg.w, _, by simp [rndReq, hbusy, hp], hans, hv, rfl⟩
  | bitReceived _ hw | lastBitReceived _ hw | frameReceived _ hw => cases hw; exact .inl rfl
  | _ => exact .inl rfl

end

/-- Settles O58: only a command in progress draws; reset, acceptance and waiting keep the list. -/
theorem answersAreConsumedOnlyWhenAsked : Obligations.AnswersAreConsumedOnlyWhenAsked := by
  intro s t h hne
  obtain ⟨s', hs', rfl⟩ := step_eq_next.mp h
  suffices DrawsKeptOrAnswered s s' from this.resolve_left hne
  rcases blockStep_cases (s := s) with
    ⟨-, hb⟩ | ⟨-, hbusy, hb⟩ | ⟨-, -, -, ⟨i, -, hb⟩ | ⟨e, -, hb⟩⟩ | ⟨-, -, -, hb⟩ <;> rw [hb] at hs'
  · cases hs'; exact .inl rfl
  · exact drawsKeptOrAnswered_of_phaseStep hbusy hs'
  · obtain ⟨-, -, htaken, -⟩ := (acceptStep_of_exec hs').frame
    exact .inl htaken
  · cases hs'; exact .inl rfl
  · cases hs'; exact .inl rfl

end Sys2Proof.Machine
end

section
/-! Real time reaches no result (41 R144): the step of a state and the step of that state with its times blanked answer
the same but for the times. Each operation is shown to keep this, and then each command and phase. -/

namespace Sys2Proof.Machine

/-! ### Timing -/

section
variable {s w w' : State} {α : Type}

/-- Two answers of a step that agree but for what real time reaches (41 R144). -/
def AgreeUntimed (r r' : Result) : Prop := Result.mapNext State.untimed r = Result.mapNext State.untimed r'

@[simp] theorem event_untimed_untimed (e : Event) : e.untimed.untimed = e.untimed := by cases e <;> rfl

/-- Blanking the times twice is blanking them once. -/
@[simp] theorem untimed_untimed (s : State) : s.untimed.untimed = s.untimed := by
  simp [State.untimed, Function.comp_def]

/-! #### The state updates -/

/-- An update that becomes `g'` on the blanked state does not see what was blanked. -/
theorem untimed_update (g g' : State → State) (hg : ∀ w, (g w).untimed = g' w.untimed) (s : State) :
    (g s).untimed = (g s.untimed).untimed := by
  rw [hg, hg, untimed_untimed]

theorem emit_untimed (e : Event) (s : State) : (emit e s).untimed = emit e.untimed s.untimed := by
  simp [emit, State.untimed]

theorem drawElapsed_untimed (s : State) : (drawElapsed s).untimed = { s.untimed with rxElapsed := some 0 } := rfl

/-- What the step of the last bit does besides keeps states agreeing. -/
theorem untimed_ite_last {p : Prop} [Decidable p] {last : State → State}
    (hlast : ∀ w w', w.untimed = w'.untimed → (last w).untimed = (last w').untimed) (h : w.untimed = w'.untimed) :
    (if p then last w else w).untimed = (if p then last w' else w').untimed := by
  split
  · exact hlast w w' h
  · exact h

/-! #### The operations -/

theorem AgreeUntimed.next (h : w.untimed = w'.untimed) : AgreeUntimed (.next w) (.next w') :=
  congrArg Host.Outcome.next h

/-- An update that neither reads nor writes a time. -/
theorem AgreeUntimed.update (g : State → State) (hg : ∀ w, (g w).untimed = g w.untimed) :
    AgreeUntimed (.next (g s)) (.next (g s.untimed)) :=
  .next (untimed_update g g hg s)

/-- A step that holds (70 R262, 42 R161). -/
theorem AgreeUntimed.hold : AgreeUntimed (.next s) (.next s.untimed) := .update id fun _ => rfl

theorem AgreeUntimed.ite {p : Prop} [Decidable p] {a a' b b' : Result} (ha : AgreeUntimed a a')
    (hb : AgreeUntimed b b') : AgreeUntimed (if p then a else b) (if p then a' else b') := by
  split
  · exact ha
  · exact hb

/-- A register read: absent on both sides, or present with its times blanked on the other side. -/
theorem AgreeUntimed.need {r : Reg} {v : Option α} {blank : α → α} {k k' : α → Result}
    (h : ∀ a, AgreeUntimed (k a) (k' (blank a))) : AgreeUntimed (need r v k) (need r (v.map blank) k') := by
  cases v with
  | none => rfl
  | some a => exact h a

/-- A register that holds no time. -/
theorem AgreeUntimed.needUntimed {r : Reg} {v : Option α} {k k' : α → Result}
    (h : ∀ a, AgreeUntimed (k a) (k' a)) : AgreeUntimed (Machine.need r v k) (Machine.need r v k') := by
  cases v with
  | none => rfl
  | some a => exact h a

theorem AgreeUntimed.guarded {i : Instr} {k k' : Result} (h : AgreeUntimed k k') :
    AgreeUntimed (guarded i s k) (guarded i s.untimed k') :=
  .ite h (.update (complete (encode i) .notConfigured) fun _ => rfl)

theorem AgreeUntimed.drawValue {W : Nat} {k k' : Nat → State → Result}
    (h : ∀ v, AgreeUntimed (k v (takeAnswer (.value v) s)) (k' v (takeAnswer (.value v) s.untimed))) :
    AgreeUntimed (drawValue W s k) (drawValue W s.untimed k') := by
  have hans : s.untimed.pins.rndAns = s.pins.rndAns := rfl
  rw [Machine.drawValue, Machine.drawValue, hans]
  split
  · exact .hold
  · exact .ite (h _) rfl
  · rfl

theorem AgreeUntimed.injectTrial {k k' : Bit → State → Result}
    (h : ∀ g drawn, AgreeUntimed (k g { s with rndTaken := s.rndTaken ++ drawn })
      (k' g { s.untimed with rndTaken := s.rndTaken ++ drawn })) :
    AgreeUntimed (injectTrial s k) (injectTrial s.untimed k') := by
  have hans : s.untimed.pins.rndAns = s.pins.rndAns := rfl
  have hkeep : AgreeUntimed (k false s) (k' false s.untimed) := by
    have hnone := h false []
    rwa [List.append_nil] at hnone
  refine .ite ?draws hkeep
  rw [drawProb, drawProb, hans]
  split
  · exact .hold
  · exact .ite (h _ [_]) rfl
  · rfl

/-- The period itself is a time: it differs, and what follows may not depend on it. -/
theorem AgreeUntimed.bitPeriod {k k' : Seconds → Result} (hbaud : 1 ≤ s.cfg.baud)
    (h : ∀ t t', AgreeUntimed (k t) (k' t')) : AgreeUntimed (bitPeriod s k) (bitPeriod s.untimed k') := by
  have hbaud' : s.cfg.baud ≠ 0 := by omega
  have hone : s.untimed.cfg.baud ≠ 0 := Nat.one_ne_zero
  rw [Machine.bitPeriod, Machine.bitPeriod, if_neg hbaud', if_neg hone]
  exact h _ _

theorem AgreeUntimed.bitAtIdx {buf : BitSeq} {k k' : Bit → Result} (h : ∀ b, AgreeUntimed (k b) (k' b)) :
    AgreeUntimed (bitAtIdx buf s k) (bitAtIdx buf s.untimed k') := by
  have hidx : s.untimed.bitIdx = s.bitIdx := rfl
  rw [Machine.bitAtIdx, Machine.bitAtIdx, hidx]
  split
  · exact h _
  · rfl

/-! #### The bit steps -/

theorem agreeUntimed_txBitStep {last : State → State} (hbaud : 1 ≤ s.cfg.baud)
    (hlast : ∀ w, (last w).untimed = last w.untimed) :
    AgreeUntimed (txBitStep last s) (txBitStep last s.untimed) := by
  refine .needUntimed fun buf => .needUntimed fun wire => .need fun trace => .bitAtIdx fun b =>
    .bitPeriod hbaud fun t t' => .injectTrial fun g drawn => .next ?_
  refine untimed_ite_last (fun w w' h => by rw [hlast, hlast, h]) ?_
  simp [State.untimed, emit, Function.comp_def]

theorem agreeUntimed_rxBitStep {last : State → State} (hbaud : 1 ≤ s.cfg.baud)
    (hlast : ∀ w, (last w).untimed = last w.untimed) :
    AgreeUntimed (rxBitStep last s) (rxBitStep last s.untimed) := by
  refine .needUntimed fun buf => .needUntimed fun seq => .bitAtIdx fun b => .bitPeriod hbaud fun t t' => .next ?_
  have hcopied : (rxWritten s seq b).untimed = (rxWritten s.untimed seq b).untimed :=
    untimed_update (rxWritten · seq b) (rxWritten · seq b) (fun _ => rfl) s
  exact untimed_ite_last (last := fun w => last (drawElapsed w))
    (fun w w' h => by simp only [hlast, drawElapsed_untimed, h]) hcopied

/-! #### The phases and the commands -/

theorem agreeUntimed_stepRReport : AgreeUntimed (stepRReport s) (stepRReport s.untimed) := by
  refine .needUntimed fun d => .needUntimed fun v => .need fun t => ?_
  have hemit : (emit (.summary s.byteIdx v d.value d.fe d.pe t) s).untimed =
      (emit (.summary s.byteIdx v d.value d.fe d.pe 0) s.untimed).untimed := by
    rw [emit_untimed, emit_untimed, untimed_untimed]
    rfl
  exact .ite (.next (congrArg (fun w : State => goto .rDraw { w with byteIdx := s.byteIdx + 1 }) hemit))
    (.next (congrArg (fun w : State => complete (encode .run) .ok { w with byteIdx := s.byteIdx + 1 }) hemit))

theorem agreeUntimed_stepRDecode : AgreeUntimed (stepRDecode s) (stepRDecode s.untimed) := by
  refine .needUntimed fun seq => ?_
  have hcfg : decodeFrame seq s.untimed.cfg.w s.untimed.cfg.pm = decodeFrame seq s.cfg.w s.cfg.pm := rfl
  rw [hcfg]
  split
  · exact .update (fun w => complete (encode .run) .invalidFrameShape { w with rdy := true }) fun _ => rfl
  next d _ => exact .update (fun w => goto .rReport { w with decOut := some d, rdy := true }) fun _ => rfl

theorem agreeUntimed_phaseStep (hbaud : 1 ≤ s.cfg.baud) : AgreeUntimed (phaseStep s) (phaseStep s.untimed) := by
  have hphase : s.untimed.phase = s.phase := rfl
  rw [phaseStep, phaseStep, hphase]
  cases s.phase with
  | idle => rfl
  | poll => exact .ite (.update (complete (encode .waitReady) .ok) fun _ => rfl) .hold
  | tx => exact agreeUntimed_txBitStep hbaud fun _ => rfl
  | rx => exact agreeUntimed_rxBitStep hbaud fun _ => rfl
  | rDraw =>
    exact .drawValue fun v => .update
      (fun w => goto .rEncode { takeAnswer (.value v) w with curValue := some v }) fun _ => rfl
  | rEncode =>
    exact .needUntimed fun v => .update
      (fun w => goto .rPoll
        { w with encOut := some (encodeFrame v w.cfg.w w.cfg.pm), txBuf := some (encodeFrame v w.cfg.w w.cfg.pm) })
      fun _ => rfl
  | rPoll =>
    exact .ite (.update (fun w => goto .rTx { w with txWire := some [], txTrace := some [], bitIdx := 0 })
      fun _ => rfl) .hold
  | rTx => exact agreeUntimed_txBitStep hbaud fun _ => rfl
  | rRxBegin =>
    exact .needUntimed fun wire => .update
      (fun w => goto .rRx { w with rdy := false, rxBuf := some wire, rxSeq := some [], bitIdx := 0 }) fun _ => rfl
  | rRx => exact agreeUntimed_rxBitStep hbaud fun _ => rfl
  | rDecode => exact agreeUntimed_stepRDecode
  | rReport => exact agreeUntimed_stepRReport

theorem agreeUntimed_execConfigure : AgreeUntimed (execConfigure s) (execConfigure s.untimed) := by
  have hcfgIn : latchOf s.untimed.pins.cfgIn = latchOf s.pins.cfgIn := rfl
  rw [execConfigure, execConfigure, hcfgIn]
  split
  next c _ =>
    exact .next (untimed_update (fun w => complete (encode .configure) .ok { w with cfg := c, cfgValid := true })
      (fun w => complete (encode .configure) .ok { w with cfg := { c with baud := 1 }, cfgValid := true })
      (fun _ => rfl) s)
  next =>
    exact .update (fun w => complete (encode .configure) .invalidConfiguration { w with cfgValid := false })
      fun _ => rfl

theorem agreeUntimed_execDecode : AgreeUntimed (execDecode s) (execDecode s.untimed) := by
  refine .guarded ?_
  have hcfg : decodeFrame s.untimed.pins.frameIn s.untimed.cfg.w s.untimed.cfg.pm =
      decodeFrame s.pins.frameIn s.cfg.w s.cfg.pm := rfl
  rw [hcfg]
  split
  · exact .update (complete (encode .decode) .invalidFrameShape) fun _ => rfl
  next d _ => exact .update (fun w => complete (encode .decode) .ok { w with decOut := some d }) fun _ => rfl

theorem agreeUntimed_execTransmit : AgreeUntimed (execTransmit s) (execTransmit s.untimed) :=
  .guarded <| .ite
    (.update (fun w => complete (encode .transmit) .ok
      { w with txBuf := some w.pins.frameIn, txWire := some [], txTrace := some [], bitIdx := 0 }) fun _ => rfl)
    (.update (fun w => begin .transmit .tx
      { w with txBuf := some w.pins.frameIn, txWire := some [], txTrace := some [], bitIdx := 0 }) fun _ => rfl)

theorem agreeUntimed_execReceive : AgreeUntimed (execReceive s) (execReceive s.untimed) :=
  .guarded <| .ite
    (.next (untimed_update
      (fun w => complete (encode .receive) .ok
        (drawElapsed { w with rxBuf := some w.pins.frameIn, rxSeq := some [], bitIdx := 0 }))
      (fun w => complete (encode .receive) .ok
        { w with rxBuf := some w.pins.frameIn, rxSeq := some [], bitIdx := 0, rxElapsed := some 0 })
      (fun _ => rfl) s))
    (.update (fun w => begin .receive .rx { w with rxBuf := some w.pins.frameIn, rxSeq := some [], bitIdx := 0 })
      fun _ => rfl)

theorem agreeUntimed_execRun : AgreeUntimed (execRun s) (execRun s.untimed) :=
  .guarded <| .ite (.update (fun w => complete (encode .run) .ok { w with byteIdx := 0 }) fun _ => rfl)
    (.update (fun w => begin .run .rDraw { w with byteIdx := 0 }) fun _ => rfl)

theorem agreeUntimed_exec (i : Instr) : AgreeUntimed (exec i s) (exec i s.untimed) := by
  cases i with
  | configure => exact agreeUntimed_execConfigure
  | encode =>
    exact .guarded (.update (fun w => complete (encode .encode) .ok
      { w with encOut := some (encodeFrame w.pins.din w.cfg.w w.cfg.pm) }) fun _ => rfl)
  | decode => exact agreeUntimed_execDecode
  | calcParity =>
    exact .guarded (.update (fun w => complete (encode .calcParity) .ok
      { w with parOut := some (parityBit (trunc w.cfg.w w.pins.din) w.cfg.w w.cfg.pm) }) fun _ => rfl)
  | transmit => exact agreeUntimed_execTransmit
  | receive => exact agreeUntimed_execReceive
  | waitReady =>
    exact .ite (.update (complete (encode .waitReady) .ok) fun _ => rfl)
      (.update (begin .waitReady .poll) fun _ => rfl)
  | run => exact agreeUntimed_execRun

theorem agreeUntimed_acceptOffer : AgreeUntimed (acceptOffer s) (acceptOffer s.untimed) := by
  have hop : s.untimed.pins.cmdOp = s.pins.cmdOp := rfl
  rw [acceptOffer, acceptOffer, hop]
  split
  next i _ => exact agreeUntimed_exec i
  next => exact .update (complete s.pins.cmdOp .illegalCommand) fun _ => rfl

theorem agreeUntimed_blockStep (hbaud : 1 ≤ s.cfg.baud) : AgreeUntimed (blockStep s) (blockStep s.untimed) :=
  .ite (.next (untimed_update resetBlock (fun w => { resetBlock w with cfg := { Cfg.default with baud := 1 } })
      (fun _ => rfl) s))
    (.ite (agreeUntimed_phaseStep hbaud) (.ite agreeUntimed_acceptOffer .hold))

/-- The ports carry no time, so moving them on keeps answers agreeing. -/
theorem AgreeUntimed.tick {r r' : Result} (h : AgreeUntimed r r') :
    AgreeUntimed (Result.mapNext tick r) (Result.mapNext tick r') := by
  have hpass (r : Result) : Result.mapNext State.untimed (Result.mapNext Machine.tick r) =
      Result.mapNext Machine.tick (Result.mapNext State.untimed r) := by
    cases r <;> rfl
  rw [AgreeUntimed, hpass, hpass, h]

/-- A step does not see the times, so long as there is a bit period (41 R144). -/
theorem agreeUntimed_step (hbaud : 1 ≤ s.cfg.baud) : AgreeUntimed (step s) (step s.untimed) :=
  (agreeUntimed_blockStep hbaud).tick

end

/-- Settles O53: both states step like their common blanked state. -/
theorem timingNeverChangesAResult : Obligations.TimingNeverChangesAResult := by
  intro s t hs ht h
  calc Result.mapNext State.untimed (step s)
    _ = Result.mapNext State.untimed (step s.untimed) := agreeUntimed_step hs
    _ = Result.mapNext State.untimed (step t.untimed) := by rw [h]
    _ = Result.mapNext State.untimed (step t) := (agreeUntimed_step ht).symm

end Sys2Proof.Machine
end

section
/-! The receiver-ready synchronizer and the link session: one step per phase, what the invariant says of a RUN, and a
whole RUN (42 R160 to R178). -/

namespace Sys2Proof.Machine

/-! ### The phases of WAIT_READY and RUN -/

section
variable {s : State}

theorem phaseStep_poll (hp : s.phase = .poll) : phaseStep s = stepPoll s := by rw [phaseStep, hp]

theorem phaseStep_rDraw (hp : s.phase = .rDraw) : phaseStep s = stepRDraw s := by rw [phaseStep, hp]

theorem phaseStep_rEncode (hp : s.phase = .rEncode) : phaseStep s = stepREncode s := by rw [phaseStep, hp]

theorem phaseStep_rPoll (hp : s.phase = .rPoll) : phaseStep s = stepRPoll s := by rw [phaseStep, hp]

theorem phaseStep_rRxBegin (hp : s.phase = .rRxBegin) : phaseStep s = stepRRxBegin s := by rw [phaseStep, hp]

theorem phaseStep_rDecode (hp : s.phase = .rDecode) : phaseStep s = stepRDecode s := by rw [phaseStep, hp]

theorem phaseStep_rReport (hp : s.phase = .rReport) : phaseStep s = stepRReport s := by rw [phaseStep, hp]

end

/-- Settles O17: the acceptance step and each step in POLL are one test of RDY. -/
theorem waitReadyPollsTheFlag : Obligations.WaitReadyPollsTheFlag := by
  intro s
  have haccept : exec .waitReady s =
      if s.rdy then .next (complete 0x7 .ok s) else .next (begin .waitReady .poll s) := rfl
  have hpoll (hp : s.phase = .poll) :
      phaseStep s = if s.rdy then .next (complete 0x7 .ok s) else .next s := phaseStep_poll hp
  refine ⟨fun hr => ?_, fun hr => ?_, fun hrst hbusy hp hr => ?_, fun hrst hbusy hp hr => ?_⟩
  · rw [haccept, if_pos hr]
  · rw [haccept, if_neg (by simp [hr])]; rfl
  · exact step_of_inProgress hrst hbusy (by rw [hpoll hp, if_pos hr])
  · exact step_of_inProgress hrst hbusy (by rw [hpoll hp, if_neg (by simp [hr])])

/-- Settles O18: the guard passes, and the count is 0 or not. -/
theorem runStartsOrCompletesAtOnce : Obligations.RunStartsOrCompletesAtOnce := by
  intro s hv
  have hexec : exec .run s =
      if s.cfg.nb = 0 then .next (complete 0x8 .ok { s with byteIdx := 0 })
      else .next (begin .run .rDraw { s with byteIdx := 0 }) :=
    guarded_of_valid _ _ hv
  exact ⟨fun hnb => hexec.trans (if_pos hnb), fun hnb => hexec.trans (if_neg hnb)⟩

/-- Settles O37: the draw is answered in range, and the encoder's operand is present. -/
theorem runDrawsAndEncodesThePayload : Obligations.RunDrawsAndEncodesThePayload := by
  intro s v hrst hbusy
  refine ⟨fun hp hans hlt => step_of_inProgress hrst hbusy ?draw,
    fun hp hcur => step_of_inProgress hrst hbusy ?encode⟩
  case draw =>
    rw [phaseStep_rDraw hp, stepRDraw]
    exact drawValue_eq_next.mpr (.inr ⟨v, hans, hlt, rfl⟩)
  case encode =>
    rw [phaseStep_rEncode hp, stepREncode, hcur]
    rfl

/-- Settles O38: R_POLL is one test of RDY, and R_RXBEGIN finds the wire sequence present. -/
theorem runPollsAndEntersReceiverBusy : Obligations.RunPollsAndEntersReceiverBusy := by
  intro s hrst hbusy
  refine ⟨fun hp hr => step_of_inProgress hrst hbusy ?passes, fun hp hr => step_of_inProgress hrst hbusy ?holds,
    fun wire hp hwire => step_of_inProgress hrst hbusy ?begins⟩
  case passes =>
    rw [phaseStep_rPoll hp, stepRPoll, if_pos hr]
    rfl
  case holds =>
    rw [phaseStep_rPoll hp, stepRPoll, if_neg (by simp [hr])]
    rfl
  case begins =>
    rw [phaseStep_rRxBegin hp, stepRRxBegin, hwire]
    rfl

/-- Settles O39: the decoder's two answers. -/
theorem runDecodesAndLeavesReceiverBusy : Obligations.RunDecodesAndLeavesReceiverBusy := by
  intro s seq hrst hbusy hp hseq
  refine ⟨fun d hd => step_of_inProgress hrst hbusy ?ok, fun hd => step_of_inProgress hrst hbusy ?shape⟩
  all_goals
    rw [phaseStep_rDecode hp, stepRDecode, hseq, need_some, hd]
    rfl

/-- Settles O40: the three registers that the summary reads are present, and a byte is left or not. -/
theorem runReportsAndGoesOn : Obligations.RunReportsAndGoesOn := by
  intro s d v e hrst hbusy hp hd hv he reported
  have hreport : phaseStep s =
      if s.byteIdx + 1 < s.cfg.nb then .next (goto .rDraw reported) else .next (complete 0x8 .ok reported) := by
    rw [phaseStep_rReport hp, stepRReport, hd, hv, he]
    rfl
  exact ⟨fun hmore => step_of_inProgress hrst hbusy (hreport.trans (if_pos hmore)),
    fun hlast => step_of_inProgress hrst hbusy (hreport.trans (if_neg hlast))⟩

end Sys2Proof.Machine
end

section
namespace Sys2Proof.Machine

/-! ### What the invariant says of a RUN -/

section
variable {s : State}

theorem StateInv.busy_of_phase (h : StateInv s) (hp : s.phase ≠ .idle) : s.busy = true := by
  have hbusy : ¬ s.busy = false := fun hb => hp (h.phase_eq_idle hb)
  simpa using hbusy

theorem phaseInv_rDecode (hp : s.phase = .rDecode) :
    PhaseInv s ↔ ∃ v wire t, Framed s v ∧ Sent s wire ∧ s.rxBuf = some wire ∧ s.rxSeq = some wire ∧
      s.rxElapsed = some t := by simp [PhaseInv, hp]

theorem phaseInv_rReport (hp : s.phase = .rReport) :
    PhaseInv s ↔ ∃ v wire t d, Framed s v ∧ Sent s wire ∧ s.rxSeq = some wire ∧ s.rxElapsed = some t ∧
      s.decOut = some d ∧ decodeFrame wire s.cfg.w s.cfg.pm = .ok d := by simp [PhaseInv, hp]

/-- A report step appends its summary, whether or not it is the last one (42 R173). -/
theorem exists_step_rReport {d : Decoded} {v : Nat} {e : Seconds} (hrst : s.pins.rst = false) (hbusy : s.busy = true)
    (hp : s.phase = .rReport) (hd : s.decOut = some d) (hv : s.curValue = some v) (he : s.rxElapsed = some e) :
    ∃ t, step s = .next t ∧ t.ev = s.ev ++ [.summary s.byteIdx v d.value d.fe d.pe e] := by
  obtain ⟨hmore, hlast⟩ := runReportsAndGoesOn s d v e hrst hbusy hp hd hv he
  by_cases h : s.byteIdx + 1 < s.cfg.nb
  · exact ⟨_, hmore h, rfl⟩
  · exact ⟨_, hlast h, rfl⟩

end

/-- Settles O42: RDY = 0 only in R_RX and R_DECODE, so the poll of R_POLL always passes. -/
theorem theGuardAlwaysPasses : Obligations.TheGuardAlwaysPasses := by
  intro s h
  refine ⟨?rdy, h.phase_ne_poll, fun hrst hbusy hp => ?step⟩
  case rdy =>
    rintro (hidle | hp | hp | hp)
    · exact h.rdy_of_idle hidle
    all_goals exact h.rdy_eq_true (by simp [hp]) (by simp [hp])
  case step =>
    have hrdy : s.rdy = true := h.rdy_eq_true (by simp [hp]) (by simp [hp])
    obtain ⟨hpass, -⟩ := runPollsAndEntersReceiverBusy s hrst hbusy
    exact ⟨_, hpass hp hrdy, rfl⟩

/-- Settles O43: the invariant of R_DECODE says where each sequence comes from, and the wire's length is L. -/
theorem noShapeErrorInARun : Obligations.NoShapeErrorInARun := by
  intro s h hrst hp
  obtain ⟨v, wire, e, ⟨-, -, hframe⟩, ⟨hwire, hlen⟩, hbuf, hseq, -⟩ := (phaseInv_rDecode hp).mp h.phase_inv
  obtain ⟨hok, -⟩ := runDecodesAndLeavesReceiverBusy s wire hrst (h.busy_of_phase (by simp [hp])) hp hseq
  exact ⟨_, wire, _, _, hframe, hwire, hbuf, hseq, encodeFrame_length _ _ _, hlen, hok _ (decodeFrame_ok hlen), rfl,
    rfl, rfl⟩

/-- Settles O44: the wire is the sent frame, which decodes to the value drawn. -/
theorem errorFreeRoundTripReportsTheSentValue : Obligations.ErrorFreeRoundTripReportsTheSentValue := by
  intro s h hrst hp hclean
  obtain ⟨v, wire, e, d, ⟨⟨hcur, hlt⟩, -, hframe⟩, ⟨hwire, -⟩, -, he, hdec, hd⟩ := (phaseInv_rReport hp).mp h.phase_inv
  obtain rfl : wire = encodeFrame v s.cfg.w s.cfg.pm := by simpa [hwire, hframe] using hclean
  rw [decodeFrame_encodeFrame, Nat.mod_eq_of_lt hlt] at hd
  obtain rfl : _ = d := FrameResult.ok.inj hd
  obtain ⟨t, hstep, hev⟩ := exists_step_rReport hrst (h.busy_of_phase (by simp [hp])) hp hdec hcur he
  exact ⟨v, e, t, hcur, he, hstep, hev⟩

end Sys2Proof.Machine
end

section
namespace Sys2Proof.Machine

/-! ### Runs under ports that serve answers -/

section
variable {s t w : State} {a : Option RndAnswer} {as bs : List (Option RndAnswer)} {ps rest : List Pins} {n : Nat}

/-- `s` with the port samples `ps`, this step's first; quiet ports after their end (log 2). -/
def onPorts (ps : List Pins) (s : State) : State := { s with pins := ps.headD Pins.quiet, script := ps.tail }

/-- A step whose ports serve `a` leads from the registers of `s` to those of `t`. -/
def StepsTo (a : Option RndAnswer) (s t : State) : Prop :=
  ∀ p rest, Serves p a → step (onPorts (p :: rest) s) = .next (onPorts rest t)

/-- Steps whose ports serve `as`, one answer per step, lead from the registers of `s` to those of `t`. -/
inductive Leads : List (Option RndAnswer) → State → State → Prop
  | nil (s : State) : Leads [] s s
  | cons {a : Option RndAnswer} {as : List (Option RndAnswer)} {s t w : State} (hstep : StepsTo a s t)
      (hrest : Leads as t w) : Leads (a :: as) s w

theorem StepsTo.leads (h : StepsTo a s t) : Leads [a] s t := .cons h (.nil t)

theorem Leads.append (h : Leads as s t) (h' : Leads bs t w) : Leads (as ++ bs) s w := by
  induction h with
  | nil => exact h'
  | cons hstep _ ih => exact .cons hstep (ih h')

/-- What the relation is for: ports that serve the answers make a run of one step per answer. -/
theorem Leads.run (h : Leads as s t) (hps : List.Forall₂ Serves ps as) :
    Host.Core.run core as.length (onPorts (ps ++ rest) s) = .next (onPorts rest t) := by
  induction h generalizing ps with
  | nil =>
    cases hps
    rfl
  | cons hstep _ ih =>
    cases hps with
    | cons hp hps => exact (run_succ_of_step (hstep _ _ hp)).trans (ih hps)

theorem stepsTo_of_phaseStep (hbusy : s.busy = true)
    (h : ∀ p rest, Serves p a → phaseStep (onPorts (p :: rest) s) = .next (onPorts (p :: rest) t)) : StepsTo a s t :=
  fun p rest hp => step_of_inProgress (s := onPorts (p :: rest) s) hp.1 hbusy (h p rest hp)

theorem leads_of_forall_stepsTo {σ : Nat → State} (h : ∀ k (hk : k < as.length), StepsTo as[k] (σ k) (σ (k + 1))) :
    Leads as (σ 0) (σ as.length) := by
  induction as generalizing σ with
  | nil => exact .nil _
  | cons a as ih =>
    exact .cons (h 0 (by simp)) (ih (σ := fun k => σ (k + 1)) fun k hk => h (k + 1) (Nat.succ_lt_succ hk))

/-- Bit steps, the last of which does `last` besides (41 R131, R142). -/
theorem leads_of_bitSteps {σ : Nat → State} {last : State → State} (hlen : as.length = n) (hpos : 0 < n)
    (hbusy : ∀ k, (σ k).busy = true) (hlast : ∀ ps w, last (onPorts ps w) = onPorts ps (last w))
    (h : ∀ k (hk : k < as.length) p rest, Serves p as[k] → phaseStep (onPorts (p :: rest) (σ k)) =
      .next (if k + 1 = n then last (onPorts (p :: rest) (σ (k + 1))) else onPorts (p :: rest) (σ (k + 1)))) :
    Leads as (σ 0) (last (σ n)) := by
  have hstage := leads_of_forall_stepsTo (as := as) (σ := fun k => if k = n then last (σ k) else σ k) fun k hk => by
    rw [if_neg (by omega : k ≠ n)]
    refine stepsTo_of_phaseStep (hbusy k) fun p rest hp => ?_
    rw [h k hk p rest hp, hlast, apply_ite (onPorts (p :: rest))]
  simpa only [hlen, if_neg hpos.ne, if_true] using hstage

end

end Sys2Proof.Machine
end

section
namespace Sys2Proof.Machine

/-! ### One byte of a RUN -/

section
variable {s : State} {f wire : BitSeq} {us : List Rat} {v : Nat} {d : Decoded}

/-- The bit steps of R_TX (42 R169). -/
theorem leads_rTx (hbusy : s.busy = true) (hp : s.phase = .rTx) (hbuf : s.txBuf = some f) (hbaud : 1 ≤ s.cfg.baud)
    (hus : TrialsFor s.cfg f.length us) (hpos : 0 < f.length) :
    Leads (trialAnswers s.cfg f.length us) (sentTrials (wireOf s.cfg f us) us 0 s)
      (goto .rRxBegin (sentTrials (wireOf s.cfg f us) us f.length s)) := by
  have hlen := trialAnswers_length hus
  refine leads_of_bitSteps (σ := fun k => sentTrials (wireOf s.cfg f us) us k s) hlen hpos (fun _ => hbusy)
    (fun _ _ => rfl) fun k hk p rest hserve => ?_
  rw [phaseStep_rTx (by exact hp)]
  exact txBitStep_sentTrials (s := onPorts (p :: rest) s) _ hbuf hbaud hus (hlen ▸ hk)
    fun a ha => (List.getElem?_eq_some_iff.mp ha).2 ▸ hserve

/-- The bit steps of R_RX (42 R171). -/
theorem leads_rRx (hbusy : s.busy = true) (hp : s.phase = .rRx) (hbuf : s.rxBuf = some f) (hbaud : 1 ≤ s.cfg.baud)
    (hpos : 0 < f.length) :
    Leads (List.replicate f.length none) (copiedPrefix f 0 s)
      (goto .rDecode (drawElapsed (copiedPrefix f f.length s))) := by
  refine leads_of_bitSteps (σ := fun k => copiedPrefix f k s) (last := fun w => goto .rDecode (drawElapsed w))
    List.length_replicate hpos (fun _ => hbusy) (fun _ _ => rfl) fun k hk p rest _ => ?_
  rw [List.length_replicate] at hk
  have hbit := rxBitStep_of_bit (s := copiedPrefix f k (onPorts (p :: rest) s))
    (goto .rDecode) hbuf rfl (List.getElem?_eq_getElem hk) hbaud
  rw [rxWritten_copiedPrefix hk] at hbit
  rw [phaseStep_rRx (by exact hp)]
  exact hbit

/-- `s` after its payload draw was answered with `v` (42 R165). -/
def payloadDrawn (v : Nat) (s : State) : State :=
  { s with curValue := some v, phase := .rEncode, rndTaken := s.rndTaken ++ [.value v] }

/-- `s` after the frame of `v` was encoded (42 R166). -/
def frameEncoded (v : Nat) (s : State) : State :=
  { s with encOut := some (encodeFrame v s.cfg.w s.cfg.pm)
           txBuf := some (encodeFrame v s.cfg.w s.cfg.pm), phase := .rPoll }

/-- `s` after the guard passed (42 R167). -/
def sendBegun (s : State) : State := { s with txWire := some [], txTrace := some [], bitIdx := 0, phase := .rTx }

/-- `s` after the receiver became busy with the sequence `wire` (42 R170). -/
def receiveBegun (wire : BitSeq) (s : State) : State :=
  { s with rdy := false, rxBuf := some wire, rxSeq := some [], bitIdx := 0, phase := .rRx }

/-- `s` after the payload `v` was drawn, encoded and sent under the trials `us` (42 R165 to R169). -/
def byteSent (v : Nat) (us : List Rat) (s : State) : State :=
  { s with
    phase := .rRxBegin
    curValue := some v
    encOut := some (encodeFrame v s.cfg.w s.cfg.pm)
    txBuf := some (encodeFrame v s.cfg.w s.cfg.pm)
    txWire := some (byteWire s.cfg v us)
    txTrace := some (List.replicate s.frameBits (1 / (s.cfg.baud : Rat)))
    bitIdx := s.frameBits
    ev := s.ev ++ bitEvents (byteWire s.cfg v us)
    rndTaken := s.rndTaken ++ byteDraws v us }

/-- `s` after the sequence `wire` was received (42 R170, R171). -/
def byteReceived (wire : BitSeq) (s : State) : State :=
  { s with
    phase := .rDecode
    rdy := false
    rxBuf := some wire
    rxSeq := some wire
    bitIdx := wire.length
    rxElapsed := some (elapsedNow s)
    elapsedDraws := s.elapsedDraws + 1 }

/-- `s` after the sequence received was decoded to `d` (42 R172). -/
def byteDecoded (d : Decoded) (s : State) : State := { s with decOut := some d, rdy := true, phase := .rReport }

/-- `s` after the summary of the value `v`, received as `d`, was emitted (42 R173). -/
def byteReported (v : Nat) (d : Decoded) (e : Seconds) (s : State) : State :=
  { s with ev := s.ev ++ [.summary s.byteIdx v d.value d.fe d.pe e], byteIdx := s.byteIdx + 1 }

/-- `s` after a whole byte with payload `v` and trials `us` that is received as `d`, before PHASE is written. -/
def byteDone (v : Nat) (us : List Rat) (d : Decoded) (s : State) : State :=
  byteReported v d (elapsedNow s) (byteDecoded d (byteReceived (byteWire s.cfg v us) (byteSent v us s)))

/-- What a RUN needs of the state in R_DRAW, at its first byte and at every later one. -/
structure RunReady (s : State) : Prop where
  busy : s.busy = true
  phase : s.phase = .rDraw
  rdy : s.rdy = true
  baud : 1 ≤ s.cfg.baud

theorem byteWire_length (hus : TrialsFor s.cfg s.frameBits us) : (byteWire s.cfg v us).length = s.frameBits := by
  have hlen : (encodeFrame v s.cfg.w s.cfg.pm).length = s.frameBits := encodeFrame_length _ _ _
  rw [byteWire, wireOf_length (hlen.symm ▸ hus), hlen]

theorem sentTrials_sendBegun : sentTrials wire us 0 (sendBegun s) = sendBegun s := by
  simp [sentTrials, sentPrefix, sendBegun, bitEvents]

/-- The last bit step of R_TX leaves the whole wire sequence and all the trials. -/
theorem sentTrials_eq_byteSent (hus : TrialsFor s.cfg s.frameBits us) :
    goto .rRxBegin (sentTrials (byteWire s.cfg v us) us s.frameBits
      (sendBegun (frameEncoded v (payloadDrawn v s)))) = byteSent v us s := by
  have hwire : (byteWire s.cfg v us).take s.frameBits = byteWire s.cfg v us :=
    List.take_of_length_le (byteWire_length hus).le
  simp only [goto, sentTrials, sentPrefix, hwire, take_of_trialsFor hus, byteSent, byteDraws, sendBegun, frameEncoded,
    payloadDrawn, List.append_assoc, List.singleton_append]

/-- R_DRAW, R_ENCODE, R_POLL and the bit steps of R_TX (42 R165 to R169). -/
theorem RunReady.leads_byteSent (h : RunReady s) (hv : v < 2 ^ s.cfg.w) (hus : TrialsFor s.cfg s.frameBits us) :
    Leads ([some (.value v), none, none] ++ trialAnswers s.cfg s.frameBits us) s (byteSent v us s) := by
  have hdraw : StepsTo (some (.value v)) s (payloadDrawn v s) := fun p rest ⟨hrst, hans⟩ =>
    (runDrawsAndEncodesThePayload (onPorts (p :: rest) s) v hrst h.busy).1 h.phase (hans _ rfl) hv
  have hencode : StepsTo none (payloadDrawn v s) (frameEncoded v (payloadDrawn v s)) := fun p rest ⟨hrst, _⟩ =>
    (runDrawsAndEncodesThePayload (onPorts (p :: rest) (payloadDrawn v s)) v hrst h.busy).2 rfl rfl
  have hpoll : StepsTo none (frameEncoded v (payloadDrawn v s)) (sendBegun (frameEncoded v (payloadDrawn v s))) :=
    fun p rest ⟨hrst, _⟩ =>
      (runPollsAndEntersReceiverBusy (onPorts (p :: rest) (frameEncoded v (payloadDrawn v s))) hrst h.busy).1 rfl h.rdy
  have hlen : (encodeFrame v s.cfg.w s.cfg.pm).length = s.frameBits := encodeFrame_length _ _ _
  have hsend : Leads (trialAnswers s.cfg s.frameBits us) (sendBegun (frameEncoded v (payloadDrawn v s)))
      (byteSent v us s) := by
    have hbits := leads_rTx (s := sendBegun (frameEncoded v (payloadDrawn v s))) (us := us) h.busy rfl rfl h.baud
      (hlen.symm ▸ hus) (hlen.symm ▸ frameLength_pos _ _)
    rw [sentTrials_sendBegun] at hbits
    rw [← sentTrials_eq_byteSent hus, ← hlen]
    exact hbits
  exact .cons hdraw (.cons hencode (.cons hpoll hsend))

theorem copiedPrefix_eq_byteReceived :
    goto .rDecode (drawElapsed (copiedPrefix wire wire.length (receiveBegun wire s))) = byteReceived wire s := by
  simp only [copiedPrefix, List.take_length]
  rfl

/-- R_RXBEGIN, the bit steps of R_RX and R_DECODE (42 R170 to R172). -/
theorem leads_byteDecoded (hbusy : s.busy = true) (hp : s.phase = .rRxBegin) (hwire : s.txWire = some wire)
    (hbaud : 1 ≤ s.cfg.baud) (hpos : 0 < wire.length) (hd : decodeFrame wire s.cfg.w s.cfg.pm = .ok d) :
    Leads (List.replicate (wire.length + 2) none) s (byteDecoded d (byteReceived wire s)) := by
  have hbegin : StepsTo none s (receiveBegun wire s) := by
    intro p rest ⟨hrst, _⟩
    obtain ⟨-, -, hrx⟩ := runPollsAndEntersReceiverBusy (onPorts (p :: rest) s) hrst hbusy
    exact hrx wire hp hwire
  have hcopy : Leads (List.replicate wire.length none) (receiveBegun wire s) (byteReceived wire s) := by
    rw [← copiedPrefix_eq_byteReceived]
    exact leads_rRx (s := receiveBegun wire s) hbusy rfl rfl hbaud hpos
  have hdecode : StepsTo none (byteReceived wire s) (byteDecoded d (byteReceived wire s)) := fun p rest ⟨hrst, _⟩ =>
    (runDecodesAndLeavesReceiverBusy (onPorts (p :: rest) (byteReceived wire s)) wire hrst hbusy rfl rfl).1 d hd
  have hanswers : List.replicate (wire.length + 2) (none : Option RndAnswer) =
      none :: (List.replicate wire.length none ++ [none]) := by
    rw [List.replicate_succ, List.replicate_succ']
  exact hanswers ▸ .cons hbegin (hcopy.append hdecode.leads)

/-- R_REPORT, after which the run goes on or is over (42 R173). -/
theorem stepsTo_byteReported {e : Seconds} (hbusy : s.busy = true) (hp : s.phase = .rReport) (hd : s.decOut = some d)
    (hv : s.curValue = some v) (he : s.rxElapsed = some e) :
    StepsTo none s
      (if s.byteIdx + 1 < s.cfg.nb then goto .rDraw (byteReported v d e s)
      else complete 0x8 .ok (byteReported v d e s)) := by
  intro p rest ⟨hrst, _⟩
  obtain ⟨hmore, hlast⟩ := runReportsAndGoesOn (onPorts (p :: rest) s) d v e hrst hbusy hp hd hv he
  split
  next hlt => exact hmore hlt
  next hge => exact hlast hge

/-- The 2L + 6 steps of a byte (42 R164, R175), from R_DRAW to R_DRAW or to the end of the run. -/
theorem RunReady.leads_byte (h : RunReady s) (hv : v < 2 ^ s.cfg.w) (hus : TrialsFor s.cfg s.frameBits us)
    (hd : decodeFrame (byteWire s.cfg v us) s.cfg.w s.cfg.pm = .ok d) :
    Leads (byteAnswers s.cfg v us) s
      (if s.byteIdx + 1 < s.cfg.nb then goto .rDraw (byteDone v us d s)
      else complete 0x8 .ok (byteDone v us d s)) := by
  have hlen : (byteWire s.cfg v us).length = s.frameBits := byteWire_length hus
  have hsend : Leads _ s (byteSent v us s) := h.leads_byteSent hv hus
  have hreceive := leads_byteDecoded (s := byteSent v us s) h.busy rfl rfl h.baud
    (hlen.symm ▸ frameLength_pos _ _) hd
  have hreport := stepsTo_byteReported (s := byteDecoded d (byteReceived (byteWire s.cfg v us) (byteSent v us s)))
    h.busy rfl rfl rfl rfl
  have hall := hsend.append (hreceive.append hreport.leads)
  rwa [hlen, ← List.replicate_succ'] at hall

theorem byteAnswers_length (hus : TrialsFor s.cfg s.frameBits us) : (byteAnswers s.cfg v us).length = s.byteSteps := by
  have htrials : (trialAnswers s.cfg s.frameBits us).length = s.frameBits := trialAnswers_length hus
  simp only [byteAnswers, List.length_append, List.length_cons, List.length_nil, List.length_replicate,
    State.byteSteps, State.frameBits] at htrials ⊢
  omega

/-- The events of a byte whose wire sequence decodes to `d` (42 R174). -/
theorem byteDone_ev (hd : decodeFrame (byteWire s.cfg v us) s.cfg.w s.cfg.pm = .ok d) :
    (byteDone v us d s).ev = s.ev ++ byteEvents s.cfg s.byteIdx (elapsedNow s) v us := by
  simp only [byteEvents, hd, ← List.append_assoc]
  rfl

end

end Sys2Proof.Machine
end

section
namespace Sys2Proof.Machine

/-! ### A whole RUN -/

section
variable {s t : State} {v e₀ : Nat} {us : List Rat} {d : Decoded} {bytes : List (Nat × List Rat)}

/-- The buffer and result registers hold the values of a byte with payload `v` and trials `us` (42 R165 to R172). -/
structure HoldsByte (c : Cfg) (v : Nat) (us : List Rat) (e : Seconds) (t : State) : Prop where
  curValue : t.curValue = some v
  encOut : t.encOut = some (encodeFrame v c.w c.pm)
  txBuf : t.txBuf = some (encodeFrame v c.w c.pm)
  txWire : t.txWire = some (byteWire c v us)
  rxBuf : t.rxBuf = some (byteWire c v us)
  rxSeq : t.rxSeq = some (byteWire c v us)
  txTrace : t.txTrace = some (List.replicate (frameLength c.w c.pm) (1 / (c.baud : Rat)))
  rxElapsed : t.rxElapsed = some e
  decOut : ∃ d, decodeFrame (byteWire c v us) c.w c.pm = .ok d ∧ t.decOut = some d

/-- From the state `s` in R_DRAW to `t` the run sent `bytes` and is over; `e₀` is the index of the clock reading of the
run's first byte. -/
structure RunDone (e₀ : Nat) (bytes : List (Nat × List Rat)) (s t : State) : Prop where
  status : t.status = .ok
  busy : t.busy = false
  phase : t.phase = .idle
  cmd : t.cmd = none
  cl : t.cl = s.cl ++ [(0x8, .ok)]
  rdy : t.rdy = true
  byteIdx : t.byteIdx = s.cfg.nb
  cfg : t.cfg = s.cfg
  cfgValid : t.cfgValid = s.cfgValid
  ev : t.ev = s.ev ++ (bytes.zipIdx s.byteIdx).flatMap
    fun b => byteEvents s.cfg b.2 (Config.elapsed (e₀ + b.2) : Rat) b.1.1 b.1.2
  rndTaken : t.rndTaken = s.rndTaken ++ bytes.flatMap fun b => byteDraws b.1 b.2
  lastByte : ∀ v us, bytes.getLast? = some (v, us) →
    HoldsByte s.cfg v us (Config.elapsed (e₀ + (s.cfg.nb - 1)) : Rat) t

theorem elapsedNow_of_eq (he : s.elapsedDraws = e₀ + s.byteIdx) : elapsedNow s = Config.elapsed (e₀ + s.byteIdx) := by
  rw [elapsedNow, he]

/-- The last byte ends the run. -/
theorem runDone_of_last (hd : decodeFrame (byteWire s.cfg v us) s.cfg.w s.cfg.pm = .ok d)
    (hlast : s.byteIdx + 1 = s.cfg.nb) (he : s.elapsedDraws = e₀ + s.byteIdx) :
    RunDone e₀ [(v, us)] s (complete 0x8 .ok (byteDone v us d s)) where
  status := rfl
  busy := rfl
  phase := rfl
  cmd := rfl
  cl := rfl
  rdy := rfl
  byteIdx := hlast
  cfg := rfl
  cfgValid := rfl
  ev := by simpa [elapsedNow_of_eq he] using byteDone_ev hd
  rndTaken := by simp [byteDone, byteReported, byteDecoded, byteReceived, byteSent]
  lastByte v' us' h := by
    obtain ⟨rfl, rfl⟩ : v = v' ∧ us = us' := by simpa using h
    refine ⟨rfl, rfl, rfl, rfl, rfl, rfl, rfl, ?_, d, hd, rfl⟩
    rw [← hlast, Nat.add_sub_cancel, ← elapsedNow_of_eq he]
    rfl

/-- A byte before the last one adds its events and draws in front of those of the rest. -/
theorem RunDone.cons (h : RunDone e₀ bytes (goto .rDraw (byteDone v us d s)) t) (hne : bytes ≠ [])
    (hd : decodeFrame (byteWire s.cfg v us) s.cfg.w s.cfg.pm = .ok d) (he : s.elapsedDraws = e₀ + s.byteIdx) :
    RunDone e₀ ((v, us) :: bytes) s t :=
  { h with
    ev := by
      rw [h.ev, goto_ev, byteDone_ev hd, elapsedNow_of_eq he, List.append_assoc]
      rfl
    rndTaken := by
      rw [h.rndTaken, List.flatMap_cons, ← List.append_assoc]
      rfl
    lastByte := fun v' us' hlast => h.lastByte v' us' (by rwa [List.getLast?_cons_of_ne_nil hne] at hlast) }

/-- A RUN in R_DRAW with the bytes `bytes` still to send goes through them and completes (42 R174, R175). -/
theorem RunReady.leads_bytes (h : RunReady s) (hne : bytes ≠ []) (hcount : s.byteIdx + bytes.length = s.cfg.nb)
    (he : s.elapsedDraws = e₀ + s.byteIdx)
    (hbytes : ∀ b ∈ bytes, b.1 < 2 ^ s.cfg.w ∧ TrialsFor s.cfg s.frameBits b.2) :
    ∃ t, Leads (bytes.flatMap fun b => byteAnswers s.cfg b.1 b.2) s t ∧ RunDone e₀ bytes s t := by
  induction bytes generalizing s with
  | nil => exact absurd rfl hne
  | cons b bytes ih =>
    obtain ⟨v, us⟩ := b
    obtain ⟨⟨hv, hus⟩, hrest⟩ := List.forall_mem_cons.mp hbytes
    obtain ⟨d, hd⟩ : ∃ d, decodeFrame (byteWire s.cfg v us) s.cfg.w s.cfg.pm = .ok d :=
      ⟨_, decodeFrame_ok (byteWire_length hus)⟩
    have hbyte := h.leads_byte hv hus hd
    rw [List.length_cons] at hcount
    rw [List.flatMap_cons]
    by_cases hnil : bytes = []
    · subst hnil
      rw [List.length_nil] at hcount
      rw [if_neg (by omega)] at hbyte
      exact ⟨_, by simpa using hbyte, runDone_of_last hd (by omega) he⟩
    · have hpos : 0 < bytes.length := List.length_pos_iff.mpr hnil
      rw [if_pos (by omega)] at hbyte
      have hcount' : s.byteIdx + 1 + bytes.length = s.cfg.nb := by omega
      have he' : s.elapsedDraws + 1 = e₀ + (s.byteIdx + 1) := by omega
      obtain ⟨t, hleads, hdone⟩ := ih (s := goto .rDraw (byteDone v us d s)) ⟨h.busy, rfl, rfl, h.baud⟩ hnil hcount'
        he' hrest
      exact ⟨t, hbyte.append hleads, hdone.cons hnil hd he⟩

theorem flatMap_byteAnswers_length (hbytes : ∀ b ∈ bytes, TrialsFor s.cfg s.frameBits b.2) :
    (bytes.flatMap fun b => byteAnswers s.cfg b.1 b.2).length = bytes.length * s.byteSteps := by
  rw [List.length_flatMap, List.map_congr_left fun b hb => byteAnswers_length (hbytes b hb), List.map_const',
    List.sum_replicate, smul_eq_mul]

end

/-- Settles O45: the acceptance step leads to R_DRAW, and the bytes follow one another from there. -/
theorem runCompletesWithEveryByteReported : Obligations.RunCompletesWithEveryByteReported := by
  intro s bytes c answers hinv hrst hidle hoffer hop hv hnb hcount hbytes hserves
  obtain ⟨-, -, hbaud, -⟩ := hinv.cfg_legal
  obtain ⟨-, hstart⟩ := runStartsOrCompletesAtOnce s hv
  have haccept := step_of_accepted hrst hidle hoffer (hop ▸ decode_encode .run) (hstart (by exact Nat.ne_of_gt hnb))
  have hne : bytes ≠ [] := List.length_pos_iff.mp (hcount ▸ hnb)
  have hready : RunReady { s with byteIdx := 0, cmd := some .run, busy := true, phase := .rDraw } :=
    ⟨rfl, rfl, hinv.rdy_of_idle hidle, hbaud⟩
  obtain ⟨t, hleads, hdone⟩ := hready.leads_bytes (e₀ := s.elapsedDraws) hne ((Nat.zero_add _).trans hcount) rfl hbytes
  have hlen : answers.length = c.nb * (2 * frameLength c.w c.pm + 6) :=
    hcount ▸ flatMap_byteAnswers_length fun b hb => (hbytes b hb).2
  have hrun := hleads.run (rest := s.script.drop (c.nb * (2 * frameLength c.w c.pm + 6))) hserves
  rw [List.take_append_drop] at hrun
  rw [Nat.add_comm, run_succ_of_step haccept, ← hlen]
  refine ⟨_, hrun, hdone.status, hdone.busy, hdone.phase, hdone.cmd, hdone.cl, hdone.rdy, hdone.byteIdx, hdone.cfg,
    hdone.cfgValid.trans hv, hdone.ev, hdone.rndTaken, fun v us hlast => ?_⟩
  obtain ⟨hcur, henc, hbuf, hwire, hrx, hseq, htrace, hel, hdec⟩ := hdone.lastByte v us hlast
  exact ⟨hcur, henc, hbuf, hwire, hrx, hseq, htrace, hel, hdec⟩

end Sys2Proof.Machine
end

section
namespace Sys2Proof.Machine

/-! ### CONFIGURE -/

section
variable {s : State} {c : CfgIn}

/-- 30 R76: every mode code but the reserved 11 names a mode. -/
theorem mode_isSome_iff (code : BitVec 2) : (mode code).isSome ↔ code ≠ 0b11 := by
  revert code
  decide

/-- A mode's code is read back as that mode (30 R76). -/
theorem mode_modeCode (m : ParityMode) : mode (modeCode m) = some m := by
  cases m <;> rfl

/-- 30 R76's table, row by row, is `modeCode`. -/
theorem eq_modeCode_iff {code : BitVec 2} {m : ParityMode} :
    code = modeCode m ↔
      (code = 0b00 ∧ m = .none) ∨ (code = 0b01 ∧ m = .even) ∨ (code = 0b10 ∧ m = .odd) := by
  cases m <;> simp [modeCode]

/-- 43 R202: the checks of a configuration record, the range of PROB whatever INJ is (43 R203). -/
theorem cfgOk_iff :
    cfgOk c ↔ 1 ≤ c.w ∧ c.w ≤ Config.maxDataBits ∧ c.pm ≠ 0b11 ∧ 1 ≤ c.baud ∧ 0 ≤ c.prob ∧ c.prob ≤ 1 := by
  simp only [cfgOk, Bool.and_eq_true, decide_eq_true_eq, mode_isSome_iff, and_assoc]

/-- A record that passes the checks is latched whole, its mode read from the code (43 R200). -/
theorem latchOf_of_ok {m : ParityMode} (hok : cfgOk c) (hpm : c.pm = modeCode m) :
    latchOf c = some { w := c.w, pm := m, baud := c.baud, inj := c.inj, prob := c.prob, nb := c.nb } := by
  rw [latchOf, if_pos hok, hpm, mode_modeCode, Option.map_some]

/-- Of a record that fails a check no field is latched (43 R201). -/
theorem latchOf_of_not_ok (hok : ¬ cfgOk c) : latchOf c = none := if_neg hok

theorem exec_configure_of_latched {cfg : Cfg} (h : latchOf s.pins.cfgIn = some cfg) :
    exec .configure s = .next (complete 0x1 .ok { s with cfg := cfg, cfgValid := true }) := by
  simp only [exec, execConfigure, h, encode]

theorem exec_configure_of_refused (h : latchOf s.pins.cfgIn = none) :
    exec .configure s = .next (complete 0x1 .invalidConfiguration { s with cfgValid := false }) := by
  simp only [exec, execConfigure, h, raise, encode]

end

/-- Settles O11: the statement's `legal` is `cfgOk`, which decides whether the record is latched or refused. -/
theorem configureLatchesOrRefuses : Obligations.ConfigureLatchesOrRefuses := by
  intro s m c legal
  refine ⟨fun hlegal hpm => ?latched, fun hillegal => ?refused⟩
  case latched => exact exec_configure_of_latched (latchOf_of_ok (cfgOk_iff.mpr hlegal) (eq_modeCode_iff.mpr hpm))
  case refused => exact exec_configure_of_refused (latchOf_of_not_ok fun hok => hillegal (cfgOk_iff.mp hok))

end Sys2Proof.Machine
end

section
/-! Completion, failure and the absence of faults (60 R221 to R232): what a completion writes, what a command that fails
in its acceptance step leaves alone, and why no step stops in a state of the invariant. -/

namespace Sys2Proof.Machine

/-! ### Completion and failure -/

section
variable {i : Instr} {s t : State} {op : OpCode} {st : Status}

/-- In a block between commands a completion writes STATUS and CL and nothing else (60 R221, R232). -/
theorem complete_of_idle (op : OpCode) (st : Status) (hbusy : s.busy = false) (hphase : s.phase = .idle)
    (hcmd : s.cmd = none) : complete op st s = { s with status := st, cl := s.cl ++ [(op, st)] } := by
  rw [complete, ← hbusy, ← hphase, ← hcmd]

/-- The guard is the first action of every command but CONFIGURE and WAIT_READY (60 R225). -/
theorem exec_of_invalid (hi : i ≠ .configure) (hw : i ≠ .waitReady) (hv : s.cfgValid = false) :
    exec i s = .next (complete (encode i) .notConfigured s) := by
  cases i with
  | configure => exact absurd rfl hi
  | waitReady => exact absurd rfl hw
  | encode | decode | calcParity | transmit | receive | run => exact guarded_of_invalid _ _ hv

/-- The guard does not apply to CONFIGURE and WAIT_READY (60 R225). -/
theorem AcceptStep.begun_or_status_ne_notConfigured (h : AcceptStep s i t) (hi : i = .configure ∨ i = .waitReady) :
    t.busy = true ∨ t.status ≠ .notConfigured := by
  cases h with
  | waitBegun => exact .inl rfl
  | configured | configRefused | ready => exact .inr (by simp)
  | unconfigured hother =>
    obtain ⟨hcfg, hwait⟩ := hother
    exact absurd hi (not_or.mpr ⟨hcfg, hwait⟩)
  | _ => simp at hi

/-- An acceptance step that logs a completion is that completion: the command is over, with the logged status in STATUS
(60 R232). -/
theorem AcceptStep.completed_of_logged (h : AcceptStep s i t) (hlog : t.cl = s.cl ++ [(op, st)]) :
    t.busy = false ∧ t.status = st := by
  rcases h.completed_or_begun with ⟨hidle, -, -, hcl⟩ | ⟨-, -, -, hcl, -⟩
  · obtain ⟨-, hst⟩ : encode i = op ∧ t.status = st := by simpa [hcl] using hlog
    exact ⟨hidle, hst⟩
  · simp [hcl] at hlog

/-- The failures of an acceptance step: a refused configuration, the guard, and a malformed sequence. Each is a
completion of the state as it was, but for the CFG_VALID of CONFIGURE (60 R222, R226, R230). -/
theorem AcceptStep.failure_cases (h : AcceptStep s i t) (hdone : t.busy = false) (hfail : t.status ≠ .ok) :
    (i = .configure ∧ t.status = .invalidConfiguration ∧
        t = complete (encode i) t.status { s with cfgValid := false }) ∨
      (i ≠ .configure ∧ (t.status = .notConfigured ∨ (i = .decode ∧ t.status = .invalidFrameShape)) ∧
        t = complete (encode i) t.status s) := by
  cases h with
  | configRefused => exact .inl ⟨rfl, rfl, rfl⟩
  | unconfigured hi => exact .inr ⟨hi.left, .inl rfl, rfl⟩
  | malformed => exact .inr ⟨by decide, .inr ⟨rfl, rfl⟩, rfl⟩
  | transmitBegun | receiveBegun | waitBegun | runBegun => simp at hdone
  | _ => exact absurd rfl hfail

end

/-- Settles O9: the definitions say it. -/
theorem completionWritesStatusAndIdles : Obligations.CompletionWritesStatusAndIdles :=
  fun _ _ _ => ⟨rfl, rfl⟩

/-- Settles O4: no command has the code, and the block is between commands. -/
theorem reservedOpCodeCompletesIllegalCommand : Obligations.ReservedOpCodeCompletesIllegalCommand := by
  intro s hrst hidle hphase hcmd hoffer hop
  have hblock : blockStep s = .next (complete s.pins.cmdOp .illegalCommand s) := by
    simp [blockStep, acceptOffer, hrst, hidle, hoffer, decode_of_reserved hop, raise]
  rw [complete_of_idle _ _ hidle hphase hcmd] at hblock
  exact step_eq_next.mpr ⟨_, hblock, rfl⟩

/-- Settles O10: the six commands start with the guard, and the other two begin or complete with another status. -/
theorem commandsThatReadCfgNeedAValidConfiguration : Obligations.CommandsThatReadCfgNeedAValidConfiguration := by
  intro s i hv
  refine ⟨fun hi => ?guarded, fun hi t hexec heq => ?spared⟩
  case guarded =>
    have hother : i ≠ .configure ∧ i ≠ .waitReady := by
      rcases hi with rfl | rfl | rfl | rfl | rfl | rfl <;> decide
    obtain ⟨hcfg, hwait⟩ := hother
    exact exec_of_invalid hcfg hwait hv
  case spared =>
    rcases (acceptStep_of_exec hexec).begun_or_status_ne_notConfigured hi with hbegun | hst
    · simp [heq] at hbegun
    · exact hst (by simp [heq])

/-- Settles O20: the three failures of `AcceptStep.failure_cases`, each in a block between commands. -/
theorem failedCommandsHaveNoPartialEffect : Obligations.FailedCommandsHaveNoPartialEffect := by
  intro i s t st hbusy hphase hcmd hexec hlog hfail
  have h : AcceptStep s i t := acceptStep_of_exec hexec
  obtain ⟨hdone, rfl⟩ := h.completed_of_logged hlog
  rcases h.failure_cases hdone hfail with ⟨rfl, hst, ht⟩ | ⟨hi, hst, ht⟩
  · have hwritten := ht.trans (complete_of_idle _ _ (by exact hbusy) (by exact hphase) (by exact hcmd))
    exact ⟨hwritten, fun _ => hst, absurd rfl⟩
  · have hwritten := ht.trans (complete_of_idle _ _ hbusy hphase hcmd)
    rw [if_neg hi]
    exact ⟨hwritten, fun hcfg => absurd hcfg hi, fun _ => hst⟩

end Sys2Proof.Machine
end

section
namespace Sys2Proof.Machine

/-! ### No step stops -/

section
variable {i : Instr} {s : State} {α : Type} {a : α} {v : Option α} {W : Nat}

/-! #### The operations -/

theorem completes_next (s : State) : Result.completes (.next s) := ⟨s, rfl⟩

theorem Result.completes.ite {p : Prop} [Decidable p] {r r' : Result} (h : r.completes) (h' : r'.completes) :
    (if p then r else r').completes := by
  split
  · exact h
  · exact h'

/-- A command that the guard refuses still completes (60 R225). -/
theorem Result.completes.guarded {k : Result} (h : k.completes) : (guarded i s k).completes :=
  .ite h (completes_next _)

/-- A register that is present is read without a fault (00 R14). -/
theorem completes_need {r : Reg} {k : α → Result} (hv : v = some a) (h : (k a).completes) :
    (need r v k).completes := by
  rwa [hv, need_some]

theorem completes_bitAtIdx {buf : BitSeq} {k : Bit → Result} (hlt : s.bitIdx < buf.length)
    (h : ∀ b, (k b).completes) : (bitAtIdx buf s k).completes := by
  rw [bitAtIdx, List.getElem?_eq_getElem hlt]
  exact h _

/-- A legal CFG has a bit period (43 R202, 92 D7). -/
theorem completes_bitPeriod {k : Seconds → Result} (hbaud : 1 ≤ s.cfg.baud) (h : ∀ t, (k t).completes) :
    (bitPeriod s k).completes := by
  rw [bitPeriod, if_neg (by omega)]
  exact h _

theorem fits_value_iff {b : RndAnswer} : b.fits (.value W) ↔ ∃ v, b = .value v ∧ v < 2 ^ W := by
  cases b <;> simp [RndAnswer.fits]

theorem fits_prob_iff {b : RndAnswer} : b.fits .prob ↔ ∃ u, b = .prob u ∧ 0 ≤ u ∧ u < 1 := by
  cases b <;> simp [RndAnswer.fits]

/-- A payload draw holds, or its answer is in range (70 R262, 93 I19). -/
theorem completes_drawValue {k : Nat → State → Result}
    (hans : ∀ b, s.pins.rndAns = some b → b.fits (.value W)) (h : ∀ v w, (k v w).completes) :
    (drawValue W s k).completes := by
  unfold drawValue
  cases hport : s.pins.rndAns with
  | none => exact completes_next s
  | some b =>
    obtain ⟨v, rfl, hlt⟩ := fits_value_iff.mp (hans b hport)
    simpa only [if_pos hlt] using h _ _

/-- A trial needs no answer with INJ = 0, and with INJ = 1 it holds or its answer is in range (41 R132, 93 I19). -/
theorem completes_injectTrial {k : Bit → State → Result}
    (hans : s.cfg.inj = true → ∀ b, s.pins.rndAns = some b → b.fits .prob) (h : ∀ g w, (k g w).completes) :
    (injectTrial s k).completes := by
  unfold injectTrial
  split
  next hinj =>
    unfold drawProb
    cases hport : s.pins.rndAns with
    | none => exact completes_next s
    | some b =>
      obtain ⟨u, rfl, hu⟩ := fits_prob_iff.mp (hans hinj b hport)
      simpa only [if_pos hu] using h _ _
  next => exact h _ _

/-! #### The requests -/

/-- 42 R165: R_DRAW asks for a payload. -/
theorem rndReq_of_rDraw (hbusy : s.busy = true) (hp : s.phase = .rDraw) : rndReq s = some (.value s.cfg.w) := by
  simp [rndReq, hbusy, hp]

/-- 41 R132: with INJ = 1 a transmit bit step asks for a trial. -/
theorem rndReq_of_sending (hbusy : s.busy = true) (hp : s.phase = .tx ∨ s.phase = .rTx) (hinj : s.cfg.inj = true) :
    rndReq s = some .prob := by
  rcases hp with hp | hp <;> simp [rndReq, hbusy, hp, hinj]

/-! #### The bit steps -/

/-- The invariant leaves a transmit bit step its three buffers, a bit to send and a bit period (10 R39(d)). -/
theorem StateInv.completes_txBitStep (h : StateInv s) (hbusy : s.busy = true) (hans : AnswerInRange s)
    (hp : s.phase = .tx ∨ s.phase = .rTx) (last : State → State) : (txBitStep last s).completes := by
  obtain ⟨buf, wire, trace, hbuf, hwire, htrace, -, -, hlt⟩ := h.sending hp
  obtain ⟨-, -, hbaud, -⟩ := h.cfg_legal
  have htrial (hinj : s.cfg.inj = true) (b : RndAnswer) : s.pins.rndAns = some b → b.fits .prob :=
    hans _ b (rndReq_of_sending hbusy hp hinj)
  exact completes_need hbuf <| completes_need hwire <| completes_need htrace <| completes_bitAtIdx hlt fun _ =>
    completes_bitPeriod hbaud fun _ => completes_injectTrial htrial fun _ _ => completes_next _

/-- The invariant leaves a receive bit step its buffer, a bit to copy and a bit period (10 R39(d)). -/
theorem StateInv.completes_rxBitStep (h : StateInv s) (hp : s.phase = .rx ∨ s.phase = .rRx) (last : State → State) :
    (rxBitStep last s).completes := by
  obtain ⟨buf, hbuf, hseq, hlt⟩ := h.receiving hp
  obtain ⟨-, -, hbaud, -⟩ := h.cfg_legal
  exact completes_need hbuf <| completes_need hseq <| completes_bitAtIdx hlt fun _ =>
    completes_bitPeriod hbaud fun _ => completes_next _

/-! #### The phases and the commands -/

theorem phaseInv_rEncode (hp : s.phase = .rEncode) : PhaseInv s ↔ ∃ v, Drawn s v := by simp [PhaseInv, hp]

theorem phaseInv_rRxBegin (hp : s.phase = .rRxBegin) : PhaseInv s ↔ ∃ v wire, Framed s v ∧ Sent s wire := by
  simp [PhaseInv, hp]

theorem completes_stepRDraw (hbusy : s.busy = true) (hans : AnswerInRange s) (hp : s.phase = .rDraw) :
    (stepRDraw s).completes :=
  completes_drawValue (fun b => hans _ b (rndReq_of_rDraw hbusy hp)) fun _ _ => completes_next _

theorem completes_stepRDecode {seq : BitSeq} (hseq : s.rxSeq = some seq) : (stepRDecode s).completes := by
  refine completes_need hseq ?_
  cases decodeFrame seq s.cfg.w s.cfg.pm with
  | shape => exact completes_next _
  | ok d => exact completes_next _

/-- Each phase finds present what it reads (10 R39(d)); the control states without a rule are not in the invariant. -/
theorem StateInv.completes_phaseStep (h : StateInv s) (hbusy : s.busy = true) (hans : AnswerInRange s) :
    (phaseStep s).completes := by
  have hinv : PhaseInv s := h.phase_inv
  cases hp : s.phase with
  | idle => exact absurd hp (h.phase_ne_idle hbusy)
  | poll => exact absurd hp h.phase_ne_poll
  | tx => rw [phaseStep_tx hp]; exact h.completes_txBitStep hbusy hans (.inl hp) _
  | rTx => rw [phaseStep_rTx hp]; exact h.completes_txBitStep hbusy hans (.inr hp) _
  | rx => rw [phaseStep_rx hp]; exact h.completes_rxBitStep (.inl hp) _
  | rRx => rw [phaseStep_rRx hp]; exact h.completes_rxBitStep (.inr hp) _
  | rDraw => rw [phaseStep_rDraw hp]; exact completes_stepRDraw hbusy hans hp
  | rEncode =>
    obtain ⟨v, hcur, -⟩ := (phaseInv_rEncode hp).mp hinv
    rw [phaseStep_rEncode hp]
    exact completes_need hcur (completes_next _)
  | rPoll => rw [phaseStep_rPoll hp]; exact .ite (completes_next _) (completes_next _)
  | rRxBegin =>
    obtain ⟨v, wire, -, hwire, -⟩ := (phaseInv_rRxBegin hp).mp hinv
    rw [phaseStep_rRxBegin hp]
    exact completes_need hwire (completes_next _)
  | rDecode =>
    obtain ⟨v, wire, e, -, -, -, hseq, -⟩ := (phaseInv_rDecode hp).mp hinv
    rw [phaseStep_rDecode hp]
    exact completes_stepRDecode hseq
  | rReport =>
    obtain ⟨v, wire, e, d, ⟨⟨hcur, -⟩, -⟩, -, -, he, hd, -⟩ := (phaseInv_rReport hp).mp hinv
    rw [phaseStep_rReport hp]
    exact completes_need hd <| completes_need hcur <| completes_need he <| .ite (completes_next _) (completes_next _)

theorem completes_execConfigure (s : State) : (execConfigure s).completes := by
  unfold execConfigure
  cases latchOf s.pins.cfgIn with
  | none => exact completes_next _
  | some c => exact completes_next _

theorem completes_execDecode (s : State) : (execDecode s).completes := by
  refine .guarded ?_
  cases decodeFrame s.pins.frameIn s.cfg.w s.cfg.pm with
  | shape => exact completes_next _
  | ok d => exact completes_next _

/-- No acceptance step reads a register that may be absent, draws, or does a bit: it is the guard and the command's own
cases (60 R228). -/
theorem completes_exec (i : Instr) (s : State) : Result.completes (exec i s) := by
  cases i with
  | configure => exact completes_execConfigure s
  | decode => exact completes_execDecode s
  | encode | calcParity => exact .guarded (completes_next _)
  | transmit | receive | run => exact .guarded (.ite (completes_next _) (completes_next _))
  | waitReady => exact .ite (completes_next _) (completes_next _)

end

/-- Settles O21: every command's acceptance completes. -/
theorem everyAcceptedCommandAnswersANextState : Obligations.EveryAcceptedCommandAnswersANextState := completes_exec

/-- Settles O49: the steps of a command in progress complete under the invariant, and reset, acceptance and waiting
complete in every state. -/
theorem noStepFaultsUnderTheInvariant : Obligations.NoStepFaultsUnderTheInvariant := by
  intro s h hans
  suffices hblock : (blockStep s).completes by
    obtain ⟨t, ht⟩ := hblock
    exact ⟨tick t, step_eq_next.mpr ⟨t, ht, rfl⟩⟩
  rcases blockStep_cases (s := s) with
    ⟨-, hb⟩ | ⟨-, hbusy, hb⟩ | ⟨-, -, -, ⟨i, -, hb⟩ | ⟨e, -, hb⟩⟩ | ⟨-, -, -, hb⟩ <;> rw [hb]
  · exact completes_next _
  · exact h.completes_phaseStep hbusy hans
  · exact completes_exec i s
  · exact completes_next _
  · exact completes_next _

end Sys2Proof.Machine
end

section
/-! Reset, the ports that a busy block ignores, holds and waiting (70 R250 to R262), the result ports (70 R266), and the
step counts of the commands (70 R268). -/

namespace Sys2Proof.Machine

/-! ### Reset and waiting -/

section
variable {s : State}

/-- 70 R250: a reset beats whatever the block would have done. -/
theorem step_of_reset (hrst : s.pins.rst = true) : step s = .next (tick (resetBlock s)) := by
  simp [step, blockStep, hrst]

end

/-- Settles O6: the step is `resetBlock`, whose writes are the lemmas of Laws/State.lean. -/
theorem resetSetsEveryRegister : Obligations.ResetSetsEveryRegister := by
  intro s hrst
  refine ⟨tick (resetBlock s), step_of_reset hrst, ?_⟩
  simp [Cfg.default]

/-- Settles O7: each field of the literal. -/
theorem resetStateHoldsTheResetValues : Obligations.ResetStateHoldsTheResetValues := by
  simp [Obligations.ResetStateHoldsTheResetValues, State.reset, Cfg.default]

/-- Settles O8: without reset, command and offer the block's step is the last branch of `blockStep`. -/
theorem idleBlockWaitsForAnOffer : Obligations.IdleBlockWaitsForAnOffer := by
  intro s hrst hidle hoffer
  have hblock : blockStep s = .next s := by simp [blockStep, hrst, hidle, hoffer]
  exact step_eq_next.mpr ⟨s, hblock, rfl⟩

/-! ### A draw without an answer -/

section
variable {s : State} {r : RndRequest}

/-- The draws of a block: the payload of R_DRAW and the trials of the transmit bit steps (10 R35, 41 R132, 42 R165). -/
theorem drawing_of_rndReq (h : rndReq s = some r) :
    s.busy = true ∧ (s.phase = .rDraw ∨ ((s.phase = .tx ∨ s.phase = .rTx) ∧ s.cfg.inj = true)) := by
  unfold rndReq at h
  split at h
  next hbusy =>
    refine ⟨hbusy, ?_⟩
    cases hp : s.phase with
    | rDraw => exact .inl rfl
    | tx =>
      obtain ⟨hinj, -⟩ : s.cfg.inj = true ∧ RndRequest.prob = r := by simpa [hp] using h
      exact .inr ⟨.inl rfl, hinj⟩
    | rTx =>
      obtain ⟨hinj, -⟩ : s.cfg.inj = true ∧ RndRequest.prob = r := by simpa [hp] using h
      exact .inr ⟨.inr rfl, hinj⟩
    | _ => simp [hp] at h
  next => cases h

/-- A transmit bit step that waits for its trial changes nothing (70 R262). -/
theorem StateInv.txBitStep_of_unanswered (h : StateInv s) (hp : s.phase = .tx ∨ s.phase = .rTx)
    (hinj : s.cfg.inj = true) (hans : s.pins.rndAns = none) (last : State → State) : txBitStep last s = .next s := by
  obtain ⟨buf, wire, trace, hbuf, hwire, htrace, -, -, hlt⟩ := h.sending hp
  obtain ⟨-, -, hbaud, -⟩ := h.cfg_legal
  exact txBitStep_eq_next.mpr ⟨buf, wire, trace, buf[s.bitIdx], hbuf, hwire, htrace, List.getElem?_eq_getElem hlt,
    by omega, .inl ⟨hinj, hans, rfl⟩⟩

end

/-- Settles O36: the draw is the payload's, or the trial of a transmit bit step. -/
theorem unansweredDrawHoldsTheBlock : Obligations.UnansweredDrawHoldsTheBlock := by
  intro s r h hrst hreq hans
  obtain ⟨hbusy, hdraw⟩ := drawing_of_rndReq hreq
  refine step_of_inProgress hrst hbusy ?_
  rcases hdraw with hp | ⟨hp | hp, hinj⟩
  · rw [phaseStep_rDraw hp, stepRDraw]
    exact drawValue_eq_next.mpr (.inl ⟨hans, rfl⟩)
  · rw [phaseStep_tx hp]
    exact h.txBitStep_of_unanswered (.inl hp) hinj hans _
  · rw [phaseStep_rTx hp]
    exact h.txBitStep_of_unanswered (.inr hp) hinj hans _

/-! ### The result ports -/

section
variable {α : Type} {r : Reg} {v : Option α} {a : α} {k : α → PortValue}

theorem portOf_of_absent (h : v = none) : portOf r v k = .error (.absentRead r) := by rw [h, portOf]

theorem portOf_of_present (h : v = some a) : portOf r v k = .ok (k a) := by rw [h, portOf]

end

/-- Settles O60: every result port is `portOf` of its register. -/
theorem resultPortsShowTheRegisterOrFault : Obligations.ResultPortsShowTheRegisterOrFault := fun _ =>
  ⟨portOf_of_absent, fun _ => portOf_of_present, portOf_of_absent, fun _ => portOf_of_present,
    portOf_of_absent, fun _ => portOf_of_present, portOf_of_absent, fun _ => portOf_of_present,
    portOf_of_absent, fun _ => portOf_of_present, portOf_of_absent, fun _ => portOf_of_present,
    portOf_of_absent, fun _ => portOf_of_present, portOf_of_absent, fun _ => portOf_of_present,
    portOf_of_absent, fun _ => portOf_of_present⟩

end Sys2Proof.Machine
end

section
namespace Sys2Proof.Machine

/-! ### The steps that a command still needs -/

/-- The steps of the bytes of a RUN after the one in progress (42 R174). -/
def laterSteps (s : State) : Nat := (s.cfg.nb - s.byteIdx - 1) * s.byteSteps

section
variable {i : Instr} {s t w : State} {buf : BitSeq} {op : OpCode} {st : Status}

/-! #### The count in each phase -/

@[simp] theorem stepsLeft_complete : stepsLeft (complete op st s) = 0 := rfl

theorem stepsLeft_idle (hp : s.phase = .idle) : stepsLeft s = 0 := by rw [stepsLeft, hp]

theorem stepsLeft_tx (hp : s.phase = .tx) (hbuf : s.txBuf = some buf) : stepsLeft s = buf.length - s.bitIdx := by
  simp [stepsLeft, hp, hbuf]

theorem stepsLeft_rx (hp : s.phase = .rx) (hbuf : s.rxBuf = some buf) : stepsLeft s = buf.length - s.bitIdx := by
  simp [stepsLeft, hp, hbuf]

theorem stepsLeft_rDraw (hp : s.phase = .rDraw) : stepsLeft s = laterSteps s + (2 * s.frameBits + 6) := by
  rw [stepsLeft, hp, laterSteps]

theorem stepsLeft_rEncode (hp : s.phase = .rEncode) : stepsLeft s = laterSteps s + (2 * s.frameBits + 5) := by
  rw [stepsLeft, hp, laterSteps]

theorem stepsLeft_rPoll (hp : s.phase = .rPoll) : stepsLeft s = laterSteps s + (2 * s.frameBits + 4) := by
  rw [stepsLeft, hp, laterSteps]

theorem stepsLeft_rTx (hp : s.phase = .rTx) :
    stepsLeft s = laterSteps s + ((s.frameBits - s.bitIdx) + s.frameBits + 3) := by
  rw [stepsLeft, hp, laterSteps]

theorem stepsLeft_rRxBegin (hp : s.phase = .rRxBegin) : stepsLeft s = laterSteps s + (s.frameBits + 3) := by
  rw [stepsLeft, hp, laterSteps]

theorem stepsLeft_rRx (hp : s.phase = .rRx) : stepsLeft s = laterSteps s + ((s.frameBits - s.bitIdx) + 2) := by
  rw [stepsLeft, hp, laterSteps]

theorem stepsLeft_rDecode (hp : s.phase = .rDecode) : stepsLeft s = laterSteps s + 2 := by
  rw [stepsLeft, hp, laterSteps]

theorem stepsLeft_rReport (hp : s.phase = .rReport) : stepsLeft s = laterSteps s + 1 := by
  rw [stepsLeft, hp, laterSteps]

/-- In a new byte the steps left are those of all the bytes from this one on. -/
theorem stepsLeft_of_newByte (hp : s.phase = .rDraw) (hbyte : s.byteIdx < s.cfg.nb) :
    stepsLeft s = (s.cfg.nb - s.byteIdx) * s.byteSteps := by
  have hpos : 1 ≤ s.cfg.nb - s.byteIdx := by omega
  calc stepsLeft s = (s.cfg.nb - s.byteIdx - 1) * s.byteSteps + s.byteSteps := stepsLeft_rDraw hp
    _ = (s.cfg.nb - s.byteIdx - 1 + 1) * s.byteSteps := (Nat.succ_mul _ _).symm
    _ = (s.cfg.nb - s.byteIdx) * s.byteSteps := by rw [Nat.sub_add_cancel hpos]

/-- Under the invariant a command needs no more steps exactly when it is over. -/
theorem StateInv.busy_eq_false_iff (h : StateInv s) : s.busy = false ↔ stepsLeft s = 0 := by
  constructor
  · intro hidle
    exact stepsLeft_idle (h.phase_eq_idle hidle)
  · intro hleft
    cases hp : s.phase with
    | idle => exact h.idle_iff.mpr ⟨hp, by simp [h.cmd_of_phase, hp, Phase.owner]⟩
    | poll => exact absurd hp h.phase_ne_poll
    | tx =>
      obtain ⟨buf, _, _, hbuf, -, -, -, -, hlt⟩ := h.sending (.inl hp)
      rw [stepsLeft_tx hp hbuf] at hleft
      omega
    | rx =>
      obtain ⟨buf, hbuf, -, hlt⟩ := h.receiving (.inl hp)
      rw [stepsLeft_rx hp hbuf] at hleft
      omega
    | _ => simp [stepsLeft, hp] at hleft

/-! #### One step of a command in progress -/

/-- In R_TX the latched buffer is the byte's frame (42 R166). -/
theorem StateInv.txBuf_length (h : StateInv s) (hp : s.phase = .rTx) (hbuf : s.txBuf = some buf) :
    buf.length = s.frameBits := by
  obtain ⟨-, v, -, -, hframe⟩ := (phaseInv_rTx hp).mp h.phase_inv
  obtain rfl : buf = _ := Option.some.inj (hbuf.symm.trans hframe)
  exact encodeFrame_length _ _ _

/-- In R_RX the latched buffer is the byte's wire sequence (42 R170, R177). -/
theorem StateInv.rxBuf_length (h : StateInv s) (hp : s.phase = .rRx) (hbuf : s.rxBuf = some buf) :
    buf.length = s.frameBits := by
  obtain ⟨-, v, wire, -, ⟨-, hlen⟩, hwire⟩ := (phaseInv_rRx hp).mp h.phase_inv
  obtain rfl : buf = wire := Option.some.inj (hbuf.symm.trans hwire)
  exact hlen

/-- A sent bit that is not the last leaves one bit less to send (41 R131). -/
theorem BitSent.stepsLeft_succ (hw : BitSent s buf w) (h : StateInv s) (hp : s.phase = .tx ∨ s.phase = .rTx) :
    stepsLeft w + 1 = stepsLeft s := by
  obtain ⟨hlt, -⟩ := hw.lengths (h.sending hp)
  cases hw with
  | mk hbuf =>
    rcases hp with hp | hp
    · rw [stepsLeft_tx hp hbuf, stepsLeft_tx (by exact hp) (by exact hbuf)]
      change buf.length - (s.bitIdx + 1) + 1 = _
      omega
    · have hlen : buf.length = s.frameBits := h.txBuf_length hp hbuf
      rw [stepsLeft_rTx hp, stepsLeft_rTx (by exact hp)]
      change laterSteps s + ((s.frameBits - (s.bitIdx + 1)) + s.frameBits + 3) + 1 = _
      omega

/-- A copied bit that is not the last leaves one bit less to copy (41 R141). -/
theorem BitReceived.stepsLeft_succ (hw : BitReceived s buf w) (h : StateInv s) (hp : s.phase = .rx ∨ s.phase = .rRx) :
    stepsLeft w + 1 = stepsLeft s := by
  obtain ⟨hlt, -⟩ := hw.copied (h.receiving hp)
  cases hw with
  | mk hbuf =>
    rcases hp with hp | hp
    · rw [stepsLeft_rx hp hbuf, stepsLeft_rx (by exact hp) (by exact hbuf)]
      change buf.length - (s.bitIdx + 1) + 1 = _
      omega
    · have hlen : buf.length = s.frameBits := h.rxBuf_length hp hbuf
      rw [stepsLeft_rRx hp, stepsLeft_rRx (by exact hp)]
      change laterSteps s + ((s.frameBits - (s.bitIdx + 1)) + 2) + 1 = _
      omega

/-- The step of the last bit of a byte's frame (42 R169). -/
theorem BitSent.stepsLeft_frameSent (hw : BitSent s buf w) (h : StateInv s) (hp : s.phase = .rTx)
    (hlast : s.bitIdx + 1 = buf.length) : stepsLeft (goto .rRxBegin w) + 1 = stepsLeft s := by
  cases hw with
  | mk hbuf =>
    have hlen : buf.length = s.frameBits := h.txBuf_length hp hbuf
    rw [stepsLeft_rTx hp, stepsLeft_rRxBegin rfl]
    change laterSteps s + (s.frameBits + 3) + 1 = _
    omega

/-- The step of the last received bit of a byte (42 R171). -/
theorem BitReceived.stepsLeft_frameReceived (hw : BitReceived s buf w) (h : StateInv s) (hp : s.phase = .rRx)
    (hlast : s.bitIdx + 1 = buf.length) : stepsLeft (goto .rDecode (drawElapsed w)) + 1 = stepsLeft s := by
  cases hw with
  | mk hbuf =>
    have hlen : buf.length = s.frameBits := h.rxBuf_length hp hbuf
    rw [stepsLeft_rRx hp, stepsLeft_rDecode rfl]
    change laterSteps s + 2 + 1 = _
    omega

/-- Every step that does not hold is one step less to do (42 R164, R174). -/
theorem BusyStep.stepsLeft_succ (ht : BusyStep s t) (h : StateInv s) (hmoves : ¬ Holds s) :
    stepsLeft t + 1 = stepsLeft s := by
  cases ht with
  | held hh => exact absurd hh hmoves
  | ready hp => exact absurd hp h.phase_ne_poll
  | bitSent hp hw => exact hw.stepsLeft_succ h hp
  | bitReceived hp hw => exact hw.stepsLeft_succ h hp
  | frameSent hp hw hlast => exact hw.stepsLeft_frameSent h hp hlast
  | frameReceived hp hw hlast => exact hw.stepsLeft_frameReceived h hp hlast
  | lastBitSent hp hw hlast =>
    cases hw with
    | mk hbuf => rw [stepsLeft_tx hp hbuf, stepsLeft_complete]; omega
  | lastBitReceived hp hw hlast =>
    cases hw with
    | mk hbuf => rw [stepsLeft_rx hp hbuf, stepsLeft_complete]; omega
  | payloadDrawn hp => rw [stepsLeft_rDraw hp, stepsLeft_rEncode rfl]; rfl
  | frameEncoded hp => rw [stepsLeft_rEncode hp, stepsLeft_rPoll rfl]; rfl
  | sendBegun hp =>
    rw [stepsLeft_rPoll hp, stepsLeft_rTx rfl]
    change laterSteps s + ((s.frameBits - 0) + s.frameBits + 3) + 1 = _
    omega
  | receiveBegun hp => rw [stepsLeft_rRxBegin hp, stepsLeft_rRx rfl]; rfl
  | decoded hp => rw [stepsLeft_rDecode hp, stepsLeft_rReport rfl]; rfl
  | malformed hp hseq hd =>
    obtain ⟨v, wire, e, -, ⟨-, hlen⟩, -, hseq', -⟩ := (phaseInv_rDecode hp).mp h.phase_inv
    obtain rfl : _ = wire := Option.some.inj (hseq.symm.trans hseq')
    exact absurd hlen (decodeFrame_shape.mp hd)
  | nextByte hp _ _ _ hmore =>
    rw [stepsLeft_rReport hp, stepsLeft_of_newByte rfl hmore]
    rfl
  | lastByte hp _ _ _ hlast =>
    have hnone : s.cfg.nb - s.byteIdx - 1 = 0 := by omega
    rw [stepsLeft_rReport hp, stepsLeft_complete, laterSteps, hnone, Nat.zero_mul]

/-- With its draw answered, a step does not hold: the poll of R_POLL passes, and no other poll is reached (42 R162). -/
theorem Answered.not_holds (hans : Answered s) (h : StateInv s) (hbusy : s.busy = true) : ¬ Holds s := by
  rintro (⟨hp | hp, hrdy⟩ | ⟨hp | ⟨hp, hinj⟩, hnone⟩)
  · exact h.phase_ne_poll hp
  · simp [h.rdy_eq_true (by simp [hp]) (by simp [hp])] at hrdy
  · obtain ⟨a, hsome, -⟩ := hans _ (rndReq_of_rDraw hbusy hp)
    simp [hnone] at hsome
  · obtain ⟨a, hsome, -⟩ := hans _ (rndReq_of_sending hbusy hp hinj)
    simp [hnone] at hsome

theorem Answered.inRange (hans : Answered s) : AnswerInRange s := by
  intro r a hreq hport
  obtain ⟨b, hport', hfits⟩ := hans r hreq
  obtain rfl : a = b := Option.some.inj (hport.symm.trans hport')
  exact hfits

/-! #### The steps of the table -/

theorem commandSteps_of_invalid (i : Instr) (hv : s.cfgValid = false) : commandSteps i s = 1 := by
  cases i with
  | transmit | receive | run => simp [commandSteps, hv]
  | _ => rfl

/-- After its acceptance step a command needs the rest of the steps that the table gives it (70 R268). -/
theorem AcceptStep.one_add_stepsLeft (ht : AcceptStep s i t) (hrdy : s.rdy = true) :
    1 + stepsLeft t = commandSteps i s := by
  cases ht with
  | configured | configRefused | encoded | malformed | decoded | parityTaken | ready => rfl
  | unconfigured _ hv => rw [stepsLeft_complete, commandSteps_of_invalid i hv]
  | sentNothing hv hlen | receivedNothing hv hlen => simp [commandSteps, hv, hlen]
  | ranNothing hv hn => simp [commandSteps, hv, hn]
  | transmitBegun hv => rw [stepsLeft_tx rfl rfl, commandSteps, if_pos hv]; rfl
  | receiveBegun hv => rw [stepsLeft_rx rfl rfl, commandSteps, if_pos hv]; rfl
  | waitBegun hr => simp [hrdy] at hr
  | runBegun hv hn => rw [stepsLeft_of_newByte rfl (Nat.pos_of_ne_zero hn), commandSteps, if_pos hv]; rfl

end

/-- Settles O51: the step is one of `BusyStep` that does not hold, and the invariant that it keeps says when the command
is over. -/
theorem everyAnsweredStepMakesProgress : Obligations.EveryAnsweredStepMakesProgress := by
  intro s h hbusy hrst hans
  obtain ⟨t, ht⟩ := h.completes_phaseStep hbusy hans.inRange
  have hstep : BusyStep s t := busyStep_of_phaseStep ht
  have hcount : stepsLeft t + 1 = stepsLeft s := hstep.stepsLeft_succ h (hans.not_holds h hbusy)
  have hover : t.busy = false ↔ stepsLeft t = 0 := (hstep.stateInv h hbusy).busy_eq_false_iff
  refine ⟨tick t, step_of_inProgress hrst hbusy ht, hcount, hover.trans ?_⟩
  omega

/-- Settles O52: the table counts the acceptance step, and the invariant that the step keeps says when the command is
over. -/
theorem acceptedCommandsNeedTheStepsOfTheTable : Obligations.AcceptedCommandsNeedTheStepsOfTheTable := by
  intro i s t h hidle hexec
  have hstep : AcceptStep s i t := acceptStep_of_exec hexec
  have hcount : 1 + stepsLeft t = commandSteps i s := hstep.one_add_stepsLeft (h.rdy_of_idle hidle)
  have hover : t.busy = false ↔ stepsLeft t = 0 := (hstep.stateInv h hidle).busy_eq_false_iff
  refine ⟨hcount, hover.trans ?_⟩
  omega

end Sys2Proof.Machine
end

section
namespace Sys2Proof.Machine

/-! ### What a busy block reads of the ports -/

/-- `s` at another port sample. -/
def withPins (p : Pins) (s : State) : State := { s with pins := p }

/-- `r` is what `r'` answers, at the port sample `p`. -/
def AtPins (p : Pins) (r r' : Result) : Prop := r = r'.mapNext (withPins p)

section
variable {p : Pins} {s w w' : State} {α : Type} {last : State → State}

/-! #### The operations -/

theorem AtPins.next (h : w = withPins p w') : AtPins p (.next w) (.next w') := congrArg Host.Outcome.next h

theorem AtPins.ite {c : Prop} [Decidable c] {a a' b b' : Result} (ha : AtPins p a a') (hb : AtPins p b b') :
    AtPins p (if c then a else b) (if c then a' else b') := by
  split
  · exact ha
  · exact hb

theorem AtPins.need {r : Reg} {v : Option α} {k k' : α → Result} (h : ∀ a, AtPins p (k a) (k' a)) :
    AtPins p (need r v k) (need r v k') := by
  cases v with
  | none => rfl
  | some a => exact h a

theorem AtPins.bitAtIdx {buf : BitSeq} {k k' : Bit → Result} (h : ∀ b, AtPins p (k b) (k' b)) :
    AtPins p (bitAtIdx buf (withPins p s) k) (bitAtIdx buf s k') := by
  change AtPins p (Machine.bitAtIdx buf s k) (Machine.bitAtIdx buf s k')
  unfold Machine.bitAtIdx
  cases buf[s.bitIdx]? with
  | none => rfl
  | some b => exact h b

theorem AtPins.bitPeriod {k k' : Seconds → Result} (h : ∀ e, AtPins p (k e) (k' e)) :
    AtPins p (bitPeriod (withPins p s) k) (bitPeriod s k') :=
  .ite rfl (h _)

/-- A payload draw reads `rnd_ans` and no other port (10 R35). -/
theorem AtPins.drawValue {W : Nat} {k k' : Nat → State → Result} (hans : p.rndAns = s.pins.rndAns)
    (h : ∀ v w, AtPins p (k v (withPins p w)) (k' v w)) :
    AtPins p (drawValue W (withPins p s) k) (drawValue W s k') := by
  have hport : (withPins p s).pins.rndAns = s.pins.rndAns := hans
  unfold Machine.drawValue
  rw [hport]
  cases s.pins.rndAns with
  | none => rfl
  | some a =>
    cases a with
    | value v => exact .ite (h v (takeAnswer (.value v) s)) rfl
    | prob u => rfl

/-- A trial reads `rnd_ans` and no other port (10 R35, 41 R132). -/
theorem AtPins.injectTrial {k k' : Bit → State → Result} (hans : p.rndAns = s.pins.rndAns)
    (h : ∀ g w, AtPins p (k g (withPins p w)) (k' g w)) :
    AtPins p (injectTrial (withPins p s) k) (injectTrial s k') := by
  have hport : (withPins p s).pins.rndAns = s.pins.rndAns := hans
  refine .ite ?_ (h _ _)
  unfold drawProb
  rw [hport]
  cases s.pins.rndAns with
  | none => rfl
  | some a =>
    cases a with
    | value v => rfl
    | prob u => exact .ite (h _ (takeAnswer (.prob u) s)) rfl

/-! #### The steps -/

/-- What the step of the last bit does besides reads no port. -/
theorem withPins_ite_last {c : Prop} [Decidable c] (hlast : ∀ w, last (withPins p w) = withPins p (last w))
    (h : w = withPins p w') : (if c then last w else w) = withPins p (if c then last w' else w') := by
  subst h
  split
  · exact hlast w'
  · rfl

theorem atPins_txBitStep (hans : p.rndAns = s.pins.rndAns) (hlast : ∀ w, last (withPins p w) = withPins p (last w)) :
    AtPins p (txBitStep last (withPins p s)) (txBitStep last s) :=
  .need fun _ => .need fun _ => .need fun _ => .bitAtIdx fun _ => .bitPeriod fun _ => .injectTrial hans fun _ _ =>
    .next (withPins_ite_last hlast rfl)

theorem atPins_rxBitStep (hlast : ∀ w, last (withPins p w) = withPins p (last w)) :
    AtPins p (rxBitStep last (withPins p s)) (rxBitStep last s) :=
  .need fun _ => .need fun _ => .bitAtIdx fun _ => .bitPeriod fun _ =>
    .next (withPins_ite_last (last := fun w => last (drawElapsed w)) (fun w => hlast (drawElapsed w)) rfl)

theorem atPins_stepRDecode : AtPins p (stepRDecode (withPins p s)) (stepRDecode s) := by
  refine .need fun seq => ?_
  have hcfg : decodeFrame seq (withPins p s).cfg.w (withPins p s).cfg.pm = decodeFrame seq s.cfg.w s.cfg.pm := rfl
  rw [hcfg]
  cases decodeFrame seq s.cfg.w s.cfg.pm with
  | shape => rfl
  | ok d => rfl

/-- A command in progress reads no port but `rnd_ans` (70 R261, 20 R60). -/
theorem atPins_phaseStep (hans : p.rndAns = s.pins.rndAns) : AtPins p (phaseStep (withPins p s)) (phaseStep s) := by
  have hphase : (withPins p s).phase = s.phase := rfl
  rw [phaseStep, phaseStep, hphase]
  cases s.phase with
  | idle => rfl
  | poll | rPoll => exact .ite rfl rfl
  | tx | rTx => exact atPins_txBitStep hans fun _ => rfl
  | rx | rRx => exact atPins_rxBitStep fun _ => rfl
  | rDraw => exact .drawValue hans fun _ _ => rfl
  | rEncode | rRxBegin => exact .need fun _ => rfl
  | rDecode => exact atPins_stepRDecode
  | rReport => exact .need fun _ => .need fun _ => .need fun _ => .ite rfl rfl

/-- A busy block reads `rst` and `rnd_ans` (70 R250, R261). -/
theorem atPins_blockStep (hbusy : s.busy = true) (hrst : p.rst = s.pins.rst) (hans : p.rndAns = s.pins.rndAns) :
    AtPins p (blockStep (withPins p s)) (blockStep s) := by
  have hrst' : (withPins p s).pins.rst = s.pins.rst := hrst
  have hbusy' : (withPins p s).busy = true := hbusy
  rw [blockStep, blockStep, hrst', if_pos hbusy, if_pos hbusy']
  exact .ite rfl (atPins_phaseStep hans)

/-- The sample of a step is gone once the ports have moved on (log 2). -/
theorem AtPins.tick_eq {r r' : Result} (h : AtPins p r r') : r.mapNext tick = r'.mapNext tick := by
  subst h
  cases r' <;> rfl

end

/-- Settles O5: the busy block's step at the other sample differs in that sample only, and `tick` replaces it. -/
theorem offersAndOperandsAreIgnoredWhileBusy : Obligations.OffersAndOperandsAreIgnoredWhileBusy :=
  fun _ _ hbusy hrst hans => (atPins_blockStep hbusy hrst hans).tick_eq

end Sys2Proof.Machine
end
